-- ==== Sys2Proof/Word.lean ====
section
/-! DEFINITION. The machine's words: bytes, halves, words, pixel codes and output cells
(spec/00_scope.md 5.6, spec/01 1.7, spec/09 R134), and access to a vector by a bounded index. -/

namespace Sys2Proof

/-- A byte of a packet. -/
abbrev Byte := BitVec 8

/-- 16 bits (00_scope.md 5.6). -/
abbrev Half := BitVec 16

/-- A Table Store word, 32 bits (00_scope.md 5.6, R21). -/
abbrev Word := BitVec 32

/-- A 12-bit source pixel code, 0 to 4095 (01 1.7). -/
abbrev Pixel := BitVec 12

/-- One 16-bit cell of an output slot (R134). -/
abbrev Cell := BitVec 16

/-- A record number, 32 bits, wrapping (00_scope.md 5.5). -/
abbrev RecordNumber := BitVec 32

/-- A 32-bit counter; it saturates (00_scope.md 5.5). -/
abbrev Counter := BitVec 32

/-- The element of `v` at `i`. -/
def pick {α : Type} {n : Nat} (v : Vector α n) (i : Fin n) : α := v[i.val]'i.isLt

/-- `v` with its element at `i` passed through `f`. -/
def upd {α : Type} {n : Nat} (v : Vector α n) (i : Fin n) (f : α → α) : Vector α n :=
  v.set i.val (f (pick v i)) i.isLt

/-- The vector whose element at `i` is `f i`. -/
def tabulate {α : Type} {n : Nat} (f : Fin n → α) : Vector α n :=
  ⟨(List.ofFn f).toArray, by simp⟩

/-- `v` with every element passed through `f`. -/
def updAll {α β : Type} {n : Nat} (v : Vector α n) (f : α → β) : Vector β n :=
  tabulate fun i => f (pick v i)

/-- Every element of `v` satisfies `p`. -/
def every {α : Type} {n : Nat} (v : Vector α n) (p : α → Bool) : Bool :=
  (List.finRange n).all fun i => p (pick v i)

end Sys2Proof
end

