-- ==== Sys2Proof/Config.lean ====
section
/-! DEFINITION. The part's fixed sizes (spec/00_scope.md 6) and the values the spec leaves open, as
opaque constants: nothing can be proved of a free value but what holds of every value. -/

namespace Sys2Proof.Config

/-- Table Store words (R21). -/
def storeWords : Nat := 131072
/-- Records the Record List holds (R139). -/
def recordPlaces : Nat := 1024
/-- Jobs the Conditioning Queue holds (R80). -/
def jobPlaces : Nat := 32
/-- Entries the Forward Queue holds (R150). -/
def forwardPlaces : Nat := 64
/-- Packets the Command Buffer holds (R162). -/
def commandPlaces : Nat := 8
/-- Responses the Response Queue holds (R164). -/
def responsePlaces : Nat := 4
/-- Notices the Notice Queue holds (R165). -/
def noticePlaces : Nat := 16
/-- Bytes the relay buffer holds (R168). -/
def relayPlaces : Nat := 256
/-- Bytes of a full relay packet (R168). -/
def relayPacketBytes : Nat := 64
/-- Words of a full stream block (R52). -/
def blockWords : Nat := 256
/-- The longest downlink payload (R160). -/
def maxPayload : Nat := 1040
/-- The broadcast destination (R161). -/
def broadcastAddress : Byte := 255

/-- FREE VALUE (log 6, DESIGN CHOICE): what a cell of an output slot holds that no job has written since
power was applied (R134: slot contents are not initialised). Arguments: the power epoch, the slot number,
the cell. -/
opaque unwrittenCell : Nat → Nat → Nat → Cell

/-- FREE VALUE (log 6, DESIGN CHOICE): a pixel of a source slot that the intake has not written since power
was applied (R134). Arguments: the power epoch, the slot number, the line and the column. -/
opaque unwrittenPixel : Nat → Nat → Nat → Nat → Pixel

/-- FREE VALUE (log 7, DESIGN CHOICE): the byte that carries, in a CODE8 line, a cell whose code does not
fit in one byte (R152's recall of an old frame under a rewritten view; R173 states one byte a code). -/
opaque wideCodeByte : Cell → Byte

/-- FREE VALUE (log 7, DESIGN CHOICE): the ten bits that carry, in a CODE10 line, a cell that holds no 10-bit code
(an unwritten cell that R152's recall reads under a larger geometry; R173 states low 8 and high 2 bits of a code). -/
opaque wideCodeBits : Cell → BitVec 10

end Sys2Proof.Config
end

