-- ==== Sys2Proof/Syntax.lean ====
section
/-! DEFINITION. The commands and events of the block: one constructor for each row of
spec/opcode_table.json, in the table's order. The rows of the Command Interpreter carry no operand: each
executes the packet at the head of the Command Buffer, whose payload holds the operands (R163, R171; log 1). -/

namespace Sys2Proof

/-- One row of spec/opcode_table.json. -/
inductive Instr where
  /-- POWER_ON_RESET (R169). Power is applied: every block takes its power-on values, the part enters STARTING and the start-up sweep begins writing 0 to every Table Store word. `strap` is the strap pins' value less 1: the node address is `strap + 1`, 1 to 15 (R161). -/
  | powerOnReset (strap : Fin 15)
  /-- STARTUP_SWEEP_END (R169). The start-up sweep completes within 2 ms, STARTING clears, and commands are from then on taken without the STARTING answer. -/
  | startupSweepEnd
  /-- FRAME_START (R5). A Frame Start packet arrives on a Camera Port; in WAIT or DISCARD its header and a free source slot are checked, and in RECEIVE it first closes the frame being received (R6). `packet` holds the packet's bytes from its kind byte on (R174). -/
  | frameStart (camera : Fin 4) (packet : List Byte)
  /-- LINE (R8). A Line packet arrives on a Camera Port in RECEIVE and is taken against the expected line: it is written, lines are repaired, or it is counted as a duplicate or ignored. `packet` as in `frameStart`. -/
  | line (camera : Fin 4) (packet : List Byte)
  /-- FRAME_END (R11). A Frame End packet arrives in RECEIVE and closes the frame: it counts an end mismatch, repairs the missing tail, then posts the frame or finds it DAMAGED. `packet` as in `frameStart`. -/
  | frameEnd (camera : Fin 4) (packet : List Byte)
  /-- CAMERA_PACKET_IGNORED (R3). A camera packet of unknown kind or wrong length, or one the port state ignores, arrives and changes no state and no counter. `packet` as in `frameStart`. -/
  | cameraPacketIgnored (camera : Fin 4) (packet : List Byte)
  /-- DOWNLINK_PACKET (R160). A downlink packet is received whole and checked for sync, length and CRC-32, then discarded or dispatched by its destination field. `packet` holds the packet's bytes from its sync on (R172). -/
  | downlinkPacket (packet : List Byte)
  /-- UNKNOWN_COMMAND (R163). The interpreter takes a packet for this node whose command byte names no command and answers it UNKNOWN_COMMAND. -/
  | unknownCommand
  /-- BROADCAST_IGNORED (R163). The interpreter takes a broadcast packet other than Set Time Tag or Soft Reset, or any broadcast packet while STARTING, or one of wrong length, and removes it without effect. -/
  | broadcastIgnored
  /-- IDENTIFY (R167). Identify returns the part name, revision, node address and the numbers of ports, views, descriptors and Table Store words. -/
  | identify
  /-- GET_STATUS (R166). Get Status returns the whole Status Word, sticky flags and live fields, as it stands. -/
  | getStatus
  /-- CLEAR_STATUS (R166). Clear Status clears the sticky flags named in its mask and returns the sticky flags as they stood before the clear. -/
  | clearStatus
  /-- READ_COUNTERS (R167). Read Counters returns one camera, view or interface counter group and clears that group when its clear option is given. -/
  | readCounters
  /-- SET_NOTICE_MASK (R165). Set Notice Mask writes the enable flag of each of the five notice kinds. -/
  | setNoticeMask
  /-- SOFT_RESET (R170). Soft Reset returns every block to its run state in one event, keeping tables, descriptors, view parameters and records, and empties the buffers and queues. -/
  | softReset
  /-- SET_CAMERA (R1). Set Camera writes the geometry, repair limit and dark-tracking configuration of a port that is OFF and has no referenced source slot. -/
  | setCamera
  /-- CAMERA_ENABLE (R2). Camera Enable turns a port on to WAIT or off to OFF, abandoning a partial frame when the port is disabled in RECEIVE. -/
  | cameraEnable
  /-- SET_BLACK_LEVEL (R17). Set Black Level writes a camera's black level B directly, in any port state. -/
  | setBlackLevel
  /-- WRITE_DESCRIPTOR (R23). Write Descriptor sets the base, limit, granularity, type and present flag of an unlocked descriptor in range and clears its accessed flag. -/
  | writeDescriptor
  /-- READ_DESCRIPTOR (R24). Read Descriptor returns a descriptor's fields and span, and clears its accessed flag afterwards when the clear option is given. -/
  | readDescriptor
  /-- CLEAR_ACCESSED_DESCRIPTOR (R25). Clear-Accessed Descriptor clears the accessed flag of every descriptor in the set and returns all 64 flags as they stood before. -/
  | clearAccessedDescriptor
  /-- LOCK_DESCRIPTOR (R27). Lock Descriptor makes an UNLOCKED descriptor LOCKED and leaves a LOCKED or LOCKED_DOWN one as it is. -/
  | lockDescriptor
  /-- UNLOCK_DESCRIPTOR (R28). Unlock Descriptor makes a LOCKED descriptor UNLOCKED and is refused DESC_LOCKED for a LOCKED_DOWN one. -/
  | unlockDescriptor
  /-- LOCK_DOWN_DESCRIPTOR (R29). Lock Down Descriptor makes a descriptor LOCKED_DOWN until power-on reset. -/
  | lockDownDescriptor
  /-- SET_PROTECTION_WINDOW (R38). Set Protection Window writes the size code, side and complement unless the protection lock is set or the new window would cover the stream reservation. -/
  | setProtectionWindow
  /-- PROTECTION_LOCK (R39). Protection Lock sets the protection lock, freezing the protection window until power-on reset. -/
  | protectionLock
  /-- LOAD_OPEN (R45). Load Open checks the descriptor, its lock state and its span, then opens a patch load with an empty buffer and takes the Load Unit to LOADING. -/
  | loadOpen
  /-- LOAD_DATA (R46). Load Data appends 1 to 256 words to the load buffer of the open patch load. -/
  | loadData
  /-- LOAD_COMMIT (R47). Load Commit checks the buffer length, the protection window and the pins, then writes the whole buffer to the Table Store and returns the Load Unit to IDLE. -/
  | loadCommit
  /-- LOAD_CANCEL (R49). Load Cancel abandons an open patch load without setting a flag. -/
  | loadCancel
  /-- STREAM_OPEN (R51). Stream Open checks the descriptor, its span, the protection window and the pins, then makes the stream reservation and takes the Load Unit to STREAMING. -/
  | streamOpen
  /-- STREAM_DATA (R52). Stream Data writes the next block of the open stream to the Table Store when it carries exactly the expected number of words. -/
  | streamData
  /-- STREAM_CANCEL (R54). Stream Cancel releases the reservation and ends the open stream, leaving the blocks already written in the store. -/
  | streamCancel
  /-- READ_TABLE (R56). Read Table returns 1 to 64 Table Store words through a descriptor, as they stand. -/
  | readTable
  /-- WRITE_VIEW (R61). Write View checks ranges, view state and slot conflicts, then stores a view's whole parameter set, resetting its forwarding state when the forwarding class changes. -/
  | writeView
  /-- READ_VIEW (R65). Read View returns a view's parameters, state, pointers, last-good record, forwarding state and queued-job information. -/
  | readView
  /-- VIEW_ACTIVATE (R68). View Activate takes a DISABLED or HELD view into ACTIVE when its scheme and mesh selector allow it. -/
  | viewActivate
  /-- VIEW_HOLD (R69). View Hold takes an ACTIVE view to DRAINING, or to HELD when it has no outstanding job. -/
  | viewHold
  /-- VIEW_DISABLE (R70). View Disable removes the view's queued jobs and takes the view to CLOSING if its job is in flight, otherwise to DISABLED. -/
  | viewDisable
  /-- ENGINE_ABORT (R95). Engine Abort stops the job in flight as ABORTED and, with the flush option, removes every queued job. -/
  | engineAbort
  /-- SET_TIME_TAG (R145). Set Time Tag loads the Time Tag Counter's value and resolution and restarts its interval, with no response when broadcast. -/
  | setTimeTag
  /-- READ_RECORDS (R143). Read Records returns 1 to 8 consecutive records, or ABSENT markers, together with the next record number. -/
  | readRecords
  /-- RECALL_FRAME (R152). Recall Frame checks a record's presence, status and generation and offers a forward entry for its frame to the Forward Queue. -/
  | recallFrame
  /-- RECALL_LATEST (R153). Recall Latest recalls a view's last-good record as Recall Frame would. -/
  | recallLatest
  /-- UPLINK_PAUSE (R157). Uplink Pause stops line packets and new transmissions, keeping the current transmission and its slot hold. -/
  | uplinkPause
  /-- UPLINK_RESUME (R157). Uplink Resume lets image packets flow again from the next line of the current transmission. -/
  | uplinkResume
  /-- UPLINK_FLUSH (R158). Uplink Flush empties the Forward Queue without counting and makes a truncating end packet pending for the current transmission. -/
  | uplinkFlush
  /-- JOB_START (R82). The engine, IDLE with a non-empty Conditioning Queue, removes the head job and carries out the start sequence as one event. -/
  | jobStart
  /-- OUTPUT_PIXEL (R92). The engine produces the next output pixel in raster order through the locate, sample, level, tone and tally stages and writes its code into the write slot. -/
  | outputPixel
  /-- JOB_END (R94). After the last pixel the job ends in one event: record finalised with statistics, pins and references released, buffer advanced, selection run, last-good updated. -/
  | jobEnd
  /-- TIME_TAG_TICK (R144). A resolution interval expires and the Time Tag Counter advances by 1, wrapping at 2^32. -/
  | timeTagTick
  /-- RELAY_BYTE (R168). A byte from the drive controller arrives on the Relay Port and joins the relay buffer, or is discarded at a full buffer with RELAY_OVERRUN set. -/
  | relayByte (byte : Byte)
  /-- RELAY_IDLE_TIMEOUT (R168). 2 ms pass with no new relay byte while the relay buffer holds bytes, making a relay packet ready. -/
  | relayIdleTimeout
  /-- UPLINK_PORT_READY (R154). The Uplink Port has finished its packet and the arbiter sends the next one in fixed order: response, relay packet, notice, transmission packet, new transmission. -/
  | uplinkPortReady
deriving DecidableEq, Repr

end Sys2Proof
end

