-- ==== Sys2Proof/WellFormed.lean ====
section
/-! DEFINITION. Well-formed commands: the bytes a camera row carries are a packet of that row's kind and
layout (R174). Every other row is well formed with any operand. -/

namespace Sys2Proof

/-- The packet's first byte is `kind` (R174). -/
def kindIs (kind : Byte) (packet : List Byte) : Bool :=
  packet.head? == some kind

/-- The command's operands have the shape its row names (R174). -/
def Instr.wellFormed : Instr → Bool
  | .frameStart _ packet => kindIs 1 packet && packet.length == 17
  | .line _ packet => kindIs 2 packet && decide (5 ≤ packet.length)
  | .frameEnd _ packet => kindIs 3 packet && packet.length == 3
  | .powerOnReset _ | .startupSweepEnd | .cameraPacketIgnored _ _ | .downlinkPacket _
  | .unknownCommand | .broadcastIgnored | .identify | .getStatus | .clearStatus | .readCounters
  | .setNoticeMask | .softReset | .setCamera | .cameraEnable | .setBlackLevel | .writeDescriptor
  | .readDescriptor | .clearAccessedDescriptor | .lockDescriptor | .unlockDescriptor
  | .lockDownDescriptor | .setProtectionWindow | .protectionLock | .loadOpen | .loadData
  | .loadCommit | .loadCancel | .streamOpen | .streamData | .streamCancel | .readTable
  | .writeView | .readView | .viewActivate | .viewHold | .viewDisable | .engineAbort | .setTimeTag
  | .readRecords | .recallFrame | .recallLatest | .uplinkPause | .uplinkResume | .uplinkFlush
  | .jobStart | .outputPixel | .jobEnd | .timeTagTick | .relayByte _ | .relayIdleTimeout
  | .uplinkPortReady => true

end Sys2Proof
end

