-- ==== Sys2Proof/Decode.lean ====
section
/-! DEFINITION. What a word of opcode_table.json spells. No row of the table gives bits ("fields": [] and
no fixed bits on all 54 rows), so no word spells a command (log 2). The decoding of the part's own packets,
camera packets and table header words stands in Sys2Proof/Machine/Operands.lean. -/

namespace Sys2Proof

/-- The command a word spells by the table's bits: none, since no row gives any. -/
def decodeTableWord (_nbits _w : Nat) : Option Instr := none

end Sys2Proof
end

