-- ==== Sys2Proof/Machine/State.lean ====
section
/-! DEFINITION. The state of the EC-64: every register, table, queue, flag and counter the spec names, as
plain data, and its value after power-on reset. INVENTORY.md lists each with its rule. -/

namespace Sys2Proof.Machine

/-- Why a step stops. Both are for states that no run from reset reaches (log 22), and both are safe: the
model stops where the spec says nothing can happen. -/
inductive Fault where
  /-- Raised by Load Commit, Stream Data and Read Table for words outside the 131,072 of the Table Store
  (R21, R22). Safe: R22 keeps base + span inside the store for every descriptor in use. -/
  | outsideTableStore
  /-- Raised by a job start whose view names no output slot: scheme NONE, or a slot outside 12 to 63 (R84:
  a view that has jobs has been activated, so its scheme is not NONE). Safe. -/
  | noOutputSlot
deriving DecidableEq, Repr

/-- Why a command has no meaning. No arm of `exec` answers with it: every row is modelled. -/
inductive Refusal where
  /-- Raised by an arm of `exec` for a row without a meaning. Safe: the model stops. -/
  | notModelled (mnemonic : String)
deriving DecidableEq, Repr

/-- What one step answers. -/
abbrev Result (σ : Type) := Host.Outcome σ Fault Refusal

/-! ### Camera Intake (spec/01) -/

/-- The frame kinds of a Frame Start (R4). -/
inductive FrameKind where
  | normal
  | dark
  | test
deriving DecidableEq, Repr

/-- The header fields a job keeps: all of R4 but width and height (05 5.1). -/
structure HeaderCopy where
  /-- The head's frame number. -/
  sequence : Half
  /-- Exposure time Ef, µs. -/
  exposure : Half
  /-- LED level Lf, 0 to 7. -/
  level : Fin 8
  /-- NORMAL, DARK or TEST. -/
  kind : FrameKind
  /-- Axis offset x, signed, units of 1/16 pixel. -/
  axisX : BitVec 12
  /-- Axis offset y, signed, units of 1/16 pixel. -/
  axisY : BitVec 12
  /-- Crawler distance, signed, mm. -/
  odometer : Word
  /-- Marker flag. -/
  marker : Bool
deriving DecidableEq, Repr

/-- The current header of a port in RECEIVE (R4). -/
structure FrameHeader where
  /-- Pixels per line. -/
  width : Nat
  /-- Lines per frame. -/
  height : Nat
  /-- The other fields. -/
  copy : HeaderCopy
deriving DecidableEq, Repr

/-- What a port holds in RECEIVE (01 1.1). -/
structure Reception where
  /-- The source slot being written. -/
  slot : Fin 12
  /-- The header of the frame being received. -/
  header : FrameHeader
  /-- The next line the port expects, e. -/
  expected : Nat
  /-- Lines repaired in this frame. -/
  repairs : Nat
deriving DecidableEq, Repr

/-- The four port states (01 1.2). -/
inductive PortState where
  | off
  | wait
  | receive (r : Reception)
  | discard
deriving DecidableEq, Repr

/-- The dark window (R1, R16). -/
structure DarkWindow where
  /-- Left column. -/
  x0 : Nat
  /-- Top row. -/
  y0 : Nat
  /-- Columns. -/
  w : Nat
  /-- Rows. -/
  h : Nat
deriving DecidableEq, Repr

/-- The nine counters of a camera (R18), in the rule's order. -/
structure CameraCounters where
  framesPosted : Counter
  geometryRejects : Counter
  noSlotDrops : Counter
  badLines : Counter
  duplicateLines : Counter
  linesRepaired : Counter
  damagedFrames : Counter
  endMismatches : Counter
  sequenceGaps : Counter
deriving DecidableEq, Repr

/-- One Camera Port (01 1.1). -/
structure Port where
  /-- Port state. -/
  state : PortState
  /-- Configured width; 0 until first configured. -/
  width : Nat
  /-- Configured height; 0 until first configured. -/
  height : Nat
  /-- Repair limit, 0 to 15 lines. -/
  repairLimit : Nat
  /-- Dark tracking on. -/
  darkTracking : Bool
  /-- Dark window. -/
  window : DarkWindow
  /-- Black level B, units of 1/16 code. -/
  black : Half
  /-- Sequence number of the last frame posted, or none. -/
  lastSequence : Option Half
  /-- The counters of R18. -/
  counters : CameraCounters
deriving DecidableEq, Repr

/-- One source slot (01 1.7): contents by line (log 21). -/
structure SourceSlot where
  /-- A frame is being written into the slot. -/
  receiving : Bool
  /-- Queued and in-flight jobs that name the slot (R14). -/
  refs : Nat
  /-- The lines written: (line, codes), lines strictly rising. -/
  rows : List (Nat × List Pixel)
deriving DecidableEq, Repr

/-- One output slot (R134 to R136). -/
structure OutputSlot where
  /-- Generation (R135). -/
  generation : Half
  /-- Hold flag (R136). -/
  held : Bool
  /-- The cells written: (cell, code), cells strictly rising. -/
  cells : List (Nat × Cell)
deriving DecidableEq, Repr

/-! ### Table Store, descriptors and the Load Unit (spec/02, spec/03) -/

/-- Unit of a descriptor's limit (02 2.2). -/
inductive Granularity where
  | word
  | block64
deriving DecidableEq, Repr

/-- The role a table may be used in (02 2.2). -/
inductive TableType where
  | untyped
  | gain
  | mesh
  | tone
deriving DecidableEq, Repr

/-- Lock state of a descriptor (02 2.3). -/
inductive LockState where
  | unlocked
  | locked
  | lockedDown
deriving DecidableEq, Repr

/-- One table descriptor (02 2.2). -/
structure Descriptor where
  /-- First Table Store word. -/
  base : Nat
  /-- Extent, in the unit of the granularity. -/
  limit : Nat
  /-- WORD or BLOCK64. -/
  granularity : Granularity
  /-- NONE, GAIN, MESH or TONE. -/
  type : TableType
  /-- Jobs may use the table. -/
  present : Bool
  /-- A job has latched the descriptor. -/
  accessed : Bool
  /-- UNLOCKED, LOCKED or LOCKED_DOWN. -/
  lock : LockState
deriving DecidableEq, Repr

/-- Side of the protection window (02 2.7). -/
inductive Side where
  | bottom
  | top
deriving DecidableEq, Repr

/-- The protection window and its lock (02 2.7). -/
structure ProtectionWindow where
  /-- Size code, 0 to 7. -/
  size : Fin 8
  /-- BOTTOM or TOP. -/
  side : Side
  /-- The protected set is the complement of the sized range. -/
  complement : Bool
  /-- The protection lock. -/
  locked : Bool
deriving DecidableEq, Repr

/-- A run of Table Store words: a pin (R40), a load target, a reservation (R41). -/
structure Span where
  /-- First word. -/
  first : Nat
  /-- Number of words. -/
  count : Nat
deriving DecidableEq, Repr

/-- The Load Unit (R42): each state with the fields it holds; in every other state those fields are none,
empty or 0. -/
inductive LoadUnit where
  | idle
  /-- A patch load is open: load descriptor, load target, load buffer. -/
  | loading (descriptor : Fin 64) (target : Span) (buffer : List Word)
  /-- A stream is open: stream descriptor, stream target (the stream reservation, R41), words streamed. -/
  | streaming (descriptor : Fin 64) (target : Span) (streamed : Nat)
deriving DecidableEq, Repr

/-! ### Views (spec/04) -/

/-- Output formats (R128). -/
inductive Format where
  | code10
  | code8
deriving DecidableEq, Repr

/-- Buffering schemes (04 4.1). -/
inductive Scheme where
  | unbuffered
  | single
  | double
  | ring
deriving DecidableEq, Repr

/-- Forwarding classes (04 4.1); OFF and EVERY carry no number (log 20). -/
inductive ForwardClass where
  | off
  | every
  | decimate (n : Nat)
  | spacing (d : Nat)
  | marker (k : Nat)
deriving DecidableEq, Repr

/-- One entry of a gain set (04 4.1). -/
structure GainEntry where
  /-- Illumination level. -/
  level : Fin 8
  /-- Descriptor selected; 0 is unused. -/
  selector : Fin 64
deriving DecidableEq, Repr

/-- The view parameters 04 4.1 marks "at job start": what a job latches (R85). -/
structure JobParams where
  gainSet : Vector GainEntry 4
  meshSelector : Fin 64
  toneSelector : Fin 64
  /-- Output width OW. -/
  width : Nat
  /-- Output height OH. -/
  height : Nat
  axisTracking : Bool
  blackSubtraction : Bool
  /-- Reference exposure Eref, µs. -/
  referenceExposure : Half
  fill : Nat
  format : Format
  histogram : Bool
  scheme : Scheme
  ringLength : Nat
  slotBase : Nat
deriving DecidableEq, Repr

/-- The whole parameter set of a view (04 4.1). -/
structure ViewParams where
  camera : Fin 4
  /-- Bit n admits illumination level n (log 31). -/
  levelMask : BitVec 8
  /-- Bits as in `FrameKind.bit` (log 31). -/
  kindMask : BitVec 3
  /-- The parameters latched at job start. -/
  job : JobParams
  advanceOnDegraded : Bool
  forwardClass : ForwardClass
  /-- Uplink priority; 3 is highest. -/
  priority : Fin 4
deriving DecidableEq, Repr

/-- The five view states (04 4.3). -/
inductive ViewState where
  | disabled
  | active
  | draining
  | held
  | closing
deriving DecidableEq, Repr

/-- The eleven counters of a view (R76), in the rule's order. -/
structure ViewCounters where
  admitted : Counter
  queueFullSkips : Counter
  completed : Counter
  degraded : Counter
  faulted : Counter
  slotHeldSkips : Counter
  aborted : Counter
  cancelled : Counter
  forwarded : Counter
  forwardDrops : Counter
  stale : Counter
deriving DecidableEq, Repr

/-- One view: parameters, state and running state (04 4.1, R74, R76). -/
structure View where
  params : ViewParams
  state : ViewState
  /-- Ring pointer p. -/
  ringPointer : Nat
  /-- Double index a. -/
  doubleIndex : Fin 2
  lastGood : Option RecordNumber
  decimation : Nat
  /-- Last forwarded odometer. -/
  lastOdometer : Option Word
  /-- Marker burst remaining. -/
  burst : Nat
  counters : ViewCounters
deriving DecidableEq, Repr

/-! ### Conditioning Queue and Engine (spec/05) -/

/-- One job of the Conditioning Queue (05 5.1). -/
structure Job where
  slot : Fin 12
  camera : Fin 4
  view : Fin 16
  header : HeaderCopy
  repairs : Nat
deriving DecidableEq, Repr

/-- The failure flag of a table (R34), without its role's prefix. -/
inductive TableFailure where
  | absent
  | loading
  | format
deriving DecidableEq, Repr

/-- The dimensions a header word gives (R31 to R33, R176). -/
inductive TableHeader where
  /-- GW, GH and cw of a gain surface. -/
  | gain (gw gh cw : Nat)
  /-- MW, MH and k of a mesh. -/
  | mesh (mw mh k : Nat)
  /-- The node count of a tone curve. -/
  | tone (nodes : Nat)
deriving DecidableEq, Repr

/-- The result of a table's validation (R87). -/
inductive TableOutcome where
  | usable (header : TableHeader)
  | failed (failure : TableFailure)
deriving DecidableEq, Repr

/-- A latched table: the descriptor copied at job start and its outcome (R86, R87). -/
structure TableLatch where
  selector : Fin 64
  descriptor : Descriptor
  outcome : TableOutcome
deriving DecidableEq, Repr

/-- A latched gain surface with its gain-set level (R86). -/
structure GainLatch where
  level : Fin 8
  table : TableLatch
deriving DecidableEq, Repr

/-- A usable gain surface as the level stage reads it (R117, R118). -/
structure Surface where
  base : Nat
  gw : Nat
  gh : Nat
  cw : Nat
deriving DecidableEq, Repr

/-- A usable mesh as the locate stage reads it (R100, R101). -/
structure Mesh where
  base : Nat
  mw : Nat
  mh : Nat
  k : Nat
deriving DecidableEq, Repr

/-- The gain mode of a job, with the blend weight w of a BLEND (R113, R114). -/
inductive GainMode where
  | unity
  | single (s : Surface)
  | blend (lower upper : Surface) (w : Nat)
deriving DecidableEq, Repr

/-- The tone mode of a job (R124); CURVE holds the tone descriptor's base. -/
inductive ToneMode where
  | linear
  | curve (base : Nat)
deriving DecidableEq, Repr

/-- The tallies of the job in flight (08 8.5). -/
structure Tallies where
  codeSum : Nat
  inField : Nat
  saturated : Nat
  outOfField : Nat
  /-- The 16 bins, when the latched histogram option is on. -/
  bins : Option (Vector Nat 16)
deriving DecidableEq, Repr

/-- The engine while a job is in flight past its start (05 5.2). Its record flags stand in its record. -/
structure Flight where
  job : Job
  record : RecordNumber
  /-- The write slot, by its index from output slot 12. -/
  slot : Fin 52
  params : JobParams
  /-- The black level B latched. -/
  black : Half
  /-- Source width W. -/
  width : Nat
  /-- Source height H. -/
  height : Nat
  gains : List GainLatch
  meshTable : TableLatch
  toneTable : Option TableLatch
  mesh : Mesh
  gainMode : GainMode
  /-- Exposure scale e, units of 1/4096 (R115). -/
  exposureScale : Nat
  toneMode : ToneMode
  tallies : Tallies
  /-- Output pixels produced, in raster order (R92). -/
  produced : Nat
deriving DecidableEq, Repr

/-! ### Records (spec/09) -/

/-- Status of a frame record (09 9.6). -/
inductive RecordStatus where
  | inProgress
  | complete
  | degraded
  | fault
  | skipped
  | aborted
deriving DecidableEq, Repr

/-- Flags of a frame record, in the order of 09 9.6. -/
inductive RecordFlag where
  | sourceRepaired
  | gainAbsent
  | gainLoading
  | gainFormat
  | meshAbsent
  | meshLoading
  | meshFormat
  | toneAbsent
  | toneLoading
  | toneFormat
  | gainCoverage
  | exposureClamped
  | slotHeld
  | saturated
  | outOfField
deriving DecidableEq, Repr

/-- The statistics part of a record (R132). -/
structure Statistics where
  mean : Nat
  saturated : Nat
  outOfField : Nat
deriving DecidableEq, Repr

/-- The output slot (by its index from 12) and generation of a record (R90). -/
structure SlotMark where
  slot : Fin 52
  generation : Half
deriving DecidableEq, Repr

/-- One frame record (09 9.6). -/
structure Record where
  number : RecordNumber
  view : Fin 16
  camera : Fin 4
  sequence : Half
  odometer : Word
  marker : Bool
  level : Fin 8
  exposure : Half
  repairs : Nat
  tagStart : Word
  status : RecordStatus
  /-- The flag set, bits in the order of `RecordFlag` (R175). -/
  flags : BitVec 15
  tagFinal : Option Word
  mark : Option SlotMark
  statistics : Option Statistics
  histogram : Option (Vector Nat 16)
deriving DecidableEq, Repr

/-! ### Forwarding (spec/10) -/

/-- One entry of the Forward Queue (R150). -/
structure ForwardEntry where
  record : RecordNumber
  view : Fin 16
  priority : Fin 4
  mark : SlotMark
  width : Nat
  height : Nat
  format : Format
deriving DecidableEq, Repr

/-- Whether a truncating end packet is pending, and what made it so (R158, R159). -/
inductive Truncation where
  | whole
  | flushed
  | reset
deriving DecidableEq, Repr

/-- The current transmission (10 10.5). -/
structure Transmission where
  entry : ForwardEntry
  /-- The next line to be sent. -/
  nextLine : Nat
  /-- Line packets sent. -/
  linesSent : Nat
  truncation : Truncation
deriving DecidableEq, Repr

/-! ### In-band management (spec/11) -/

/-- The 38 commands of 11 11.7, in the order of their codes 1 to 38. -/
inductive Command where
  | identify
  | getStatus
  | clearStatus
  | readCounters
  | setNoticeMask
  | softReset
  | setCamera
  | cameraEnable
  | setBlackLevel
  | writeDescriptor
  | readDescriptor
  | clearAccessedDescriptor
  | lockDescriptor
  | unlockDescriptor
  | lockDownDescriptor
  | setProtectionWindow
  | protectionLock
  | loadOpen
  | loadData
  | loadCommit
  | loadCancel
  | streamOpen
  | streamData
  | streamCancel
  | readTable
  | writeView
  | readView
  | viewActivate
  | viewHold
  | viewDisable
  | engineAbort
  | setTimeTag
  | readRecords
  | recallFrame
  | recallLatest
  | uplinkPause
  | uplinkResume
  | uplinkFlush
deriving DecidableEq, Repr

/-- A packet in the Command Buffer (R162, R172). -/
structure Packet where
  /-- The packet was addressed to 255. -/
  broadcast : Bool
  /-- Request tag. -/
  tag : Byte
  /-- Command byte. -/
  command : Byte
  payload : List Byte
deriving DecidableEq, Repr

/-- Completion statuses (11 11.2), in the order of their codes 0 to 17. -/
inductive Status where
  | ok
  | done
  | badLength
  | unknownCommand
  | badParam
  | busy
  | sequence
  | incomplete
  | descRange
  | descLocked
  | limit
  | protectedWords
  | regionPinned
  | viewState
  | slotConflict
  | stale
  | absent
  | starting
deriving DecidableEq, Repr

/-- A response in the Response Queue (R163). -/
structure Response where
  tag : Byte
  command : Byte
  status : Status
  /-- Result data, encoded as R171 gives. -/
  data : List Byte
deriving DecidableEq, Repr

/-- A notice with its fields (R165). -/
inductive Notice where
  | cameraDamaged (camera : Fin 4) (sequence : Half) (repairs : Nat)
  | viewFault (view : Fin 16) (record : RecordNumber) (failure : TableFailure)
  | ringWrap (view : Fin 16) (length : Nat) (record : RecordNumber)
  | recordRollover (record : RecordNumber)
  | forwardDrop (view : Fin 16) (record : RecordNumber) (isNew : Bool)
deriving DecidableEq, Repr

/-- The sticky flags of the Status Word, in the order of R166. -/
inductive StickyFlag where
  | loadSequence
  | loadRefused
  | downlinkCrc
  | commandOverrun
  | noticeLost
  | relayOverrun
  | cameraDamaged
  | viewFault
  | forwardDrop
deriving DecidableEq, Repr

/-- The counters of R167, in the rule's order. -/
structure InterfaceCounters where
  downlinkErrors : Counter
  commandOverruns : Counter
  noticesLost : Counter
  relayBytesDropped : Counter
deriving DecidableEq, Repr

/-- The 2 ms interval since the last relay byte (R168; log 18). -/
inductive RelayInterval where
  | stopped
  | running
  | elapsed
deriving DecidableEq, Repr

/-! ### The state -/

/-- The state of the EC-64. `pending` and `epoch` are the model's own (log 2, log 6). -/
structure State where
  /-- MODEL: the commands waiting, oldest first (log 2). -/
  pending : List Instr
  /-- MODEL: how often power has been applied since `State.reset`; read by free values only (log 6). -/
  epoch : Nat
  /-- STARTING (R169). -/
  starting : Bool
  /-- Node address, 1 to 15 (R161). -/
  nodeAddress : Byte
  /-- The four Camera Ports (01). -/
  ports : Vector Port 4
  /-- Source slots 0 to 11 (01 1.7). -/
  sourceSlots : Vector SourceSlot 12
  /-- Output slots 12 to 63, by their index from 12 (R134). -/
  outputSlots : Vector OutputSlot 52
  /-- The Table Store: (address, word), addresses strictly rising, no word 0 listed (R21). -/
  tableStore : List (Nat × Word)
  /-- The Descriptor Table (02 2.2). -/
  descriptors : Vector Descriptor 64
  /-- The protection window (R37). -/
  window : ProtectionWindow
  /-- The pin list (R40). -/
  pins : List Span
  /-- The Load Unit (R42). -/
  loadUnit : LoadUnit
  /-- The View Table (04). -/
  views : Vector View 16
  /-- The Conditioning Queue, oldest first (R80). -/
  jobs : List Job
  /-- The job in flight; none is engine IDLE, some is RUNNING (R82). -/
  flight : Option Flight
  /-- The records held, oldest first (R139). -/
  records : List Record
  /-- The number the next record takes (R140). -/
  nextRecord : RecordNumber
  /-- The Time Tag Counter (R144). -/
  timeTag : Word
  /-- Its resolution, µs per count (R144). -/
  resolution : Nat
  /-- The Forward Queue, in the order the arbiter takes its entries (R150; log 27). -/
  forwardQueue : List ForwardEntry
  /-- The current transmission (10 10.5). -/
  transmission : Option Transmission
  /-- The uplink is paused (R157). -/
  paused : Bool
  /-- The bytes of the packet the Uplink Port is sending (R154, R173; log 17). -/
  uplinkPort : Option (List Byte)
  /-- The packet relayed out of the Relay Port at the last downlink packet (R161; log 17). -/
  relayPort : Option (List Byte)
  /-- The Command Buffer, oldest first (R162). -/
  commandBuffer : List Packet
  /-- The Response Queue, oldest first (R164). -/
  responses : List Response
  /-- The Notice Queue, oldest first (R165). -/
  notices : List Notice
  /-- The sticky flags, bits in the order of `StickyFlag` (R166; log 31). -/
  sticky : BitVec 9
  /-- The notice mask, bits in the order of `Notice` (R165; log 31). -/
  noticeMask : BitVec 5
  /-- The counters of R167. -/
  interfaceCounters : InterfaceCounters
  /-- The relay buffer, oldest first (R168). -/
  relayBuffer : List Byte
  /-- The 2 ms interval of the relay buffer (R168). -/
  relayInterval : RelayInterval
deriving DecidableEq, Repr

/-! ### Power-on values -/

/-- Every camera counter at 0 (R19). -/
def CameraCounters.zero : CameraCounters := ⟨0, 0, 0, 0, 0, 0, 0, 0, 0⟩

/-- Every view counter at 0 (R77). -/
def ViewCounters.zero : ViewCounters := ⟨0, 0, 0, 0, 0, 0, 0, 0, 0, 0, 0⟩

/-- The counters of R167 at 0. -/
def InterfaceCounters.zero : InterfaceCounters := ⟨0, 0, 0, 0⟩

/-- A Camera Port after power-on reset (R19). -/
def Port.powerOn : Port where
  state := .off
  width := 0
  height := 0
  repairLimit := 0
  darkTracking := false
  window := ⟨0, 0, 0, 0⟩
  black := 0
  lastSequence := none
  counters := CameraCounters.zero

/-- A source slot after power-on reset (R19, R134). -/
def SourceSlot.powerOn : SourceSlot where
  receiving := false
  refs := 0
  rows := []

/-- An output slot after power-on reset (R134, R135, R136). -/
def OutputSlot.powerOn : OutputSlot where
  generation := 0
  held := false
  cells := []

/-- A descriptor after power-on reset (R30). -/
def Descriptor.powerOn : Descriptor where
  base := 0
  limit := 0
  granularity := .word
  type := .untyped
  present := false
  accessed := false
  lock := .unlocked

/-- The protection window after power-on reset (R38). -/
def ProtectionWindow.powerOn : ProtectionWindow where
  size := 0
  side := .bottom
  complement := false
  locked := false

/-- View parameters after power-on reset (R77). -/
def ViewParams.powerOn : ViewParams where
  camera := 0
  levelMask := 0
  kindMask := 0
  job :=
    { gainSet := Vector.replicate 4 ⟨0, 0⟩
      meshSelector := 0
      toneSelector := 0
      width := 0
      height := 0
      axisTracking := false
      blackSubtraction := false
      referenceExposure := 0
      fill := 0
      format := .code10
      histogram := false
      scheme := .unbuffered
      ringLength := 0
      slotBase := 0 }
  advanceOnDegraded := false
  forwardClass := .off
  priority := 0

/-- A view after power-on reset (R77). -/
def View.powerOn : View where
  params := ViewParams.powerOn
  state := .disabled
  ringPointer := 0
  doubleIndex := 0
  lastGood := none
  decimation := 0
  lastOdometer := none
  burst := 0
  counters := ViewCounters.zero

/-- The machine right after power-on reset (R169 and the rules it names): the part is STARTING. The node
address stands for the strap pins' value (log 8). -/
def State.reset : State where
  pending := []
  epoch := 0
  starting := true
  nodeAddress := 1
  ports := Vector.replicate 4 Port.powerOn
  sourceSlots := Vector.replicate 12 SourceSlot.powerOn
  outputSlots := Vector.replicate 52 OutputSlot.powerOn
  tableStore := []
  descriptors := Vector.replicate 64 Descriptor.powerOn
  window := ProtectionWindow.powerOn
  pins := []
  loadUnit := .idle
  views := Vector.replicate 16 View.powerOn
  jobs := []
  flight := none
  records := []
  nextRecord := 0
  timeTag := 0
  resolution := 1
  forwardQueue := []
  transmission := none
  paused := false
  uplinkPort := none
  relayPort := none
  commandBuffer := []
  responses := []
  notices := []
  sticky := 0
  noticeMask := BitVec.allOnes 5
  interfaceCounters := InterfaceCounters.zero
  relayBuffer := []
  relayInterval := .stopped

end Sys2Proof.Machine
end

