-- ==== Sys2Proof/Machine/Flags.lean ====
section
/-! DEFINITION. Counters, sticky flags, record flags and masks: where each bit stands and how it is set. -/

namespace Sys2Proof.Machine

/-- A counter after one more event: it saturates at 4,294,967,295 (00_scope.md 5.5). -/
def satInc (c : Counter) : Counter :=
  if c = BitVec.allOnes 32 then c else c + 1

/-- A set of flags with the flag at bit `i` set. -/
def withBit {w : Nat} (flags : BitVec w) (i : Nat) : BitVec w :=
  flags ||| BitVec.twoPow w i

/-- The bit of a sticky flag, in the listed order of R166; the first in bit 0 (log 31, DEDUCED). -/
def StickyFlag.bit : StickyFlag → Nat
  | .loadSequence => 0
  | .loadRefused => 1
  | .downlinkCrc => 2
  | .commandOverrun => 3
  | .noticeLost => 4
  | .relayOverrun => 5
  | .cameraDamaged => 6
  | .viewFault => 7
  | .forwardDrop => 8

/-- The code of a notice's kind, in the order of R165; its bit in the notice mask (log 31,
DEDUCED). -/
def Notice.kindCode : Notice → Nat
  | .cameraDamaged _ _ _ => 0
  | .viewFault _ _ _ => 1
  | .ringWrap _ _ _ => 2
  | .recordRollover _ => 3
  | .forwardDrop _ _ _ => 4

/-- The bit of a frame kind in a kind mask, in listed order (04 4.1); NORMAL in bit 0 (log 31, DEDUCED). -/
def FrameKind.bit : FrameKind → Nat
  | .normal => 0
  | .dark => 1
  | .test => 2

/-- The bit of a record flag, in the order of the record field table of 09 9.6 (R175). -/
def RecordFlag.bit : RecordFlag → Nat
  | .sourceRepaired => 0
  | .gainAbsent => 1
  | .gainLoading => 2
  | .gainFormat => 3
  | .meshAbsent => 4
  | .meshLoading => 5
  | .meshFormat => 6
  | .toneAbsent => 7
  | .toneLoading => 8
  | .toneFormat => 9
  | .gainCoverage => 10
  | .exposureClamped => 11
  | .slotHeld => 12
  | .saturated => 13
  | .outOfField => 14

/-- A record's flag set with `f` in it; a flag joins the set at most once (R93). -/
def joinFlag (flags : BitVec 15) (f : RecordFlag) : BitVec 15 :=
  withBit flags f.bit

/-- A record's flag set with every flag of `fs` in it. -/
def joinFlags (flags : BitVec 15) (fs : List RecordFlag) : BitVec 15 :=
  fs.foldl joinFlag flags

/-- `f` is in the flag set. -/
def hasFlag (flags : BitVec 15) (f : RecordFlag) : Bool :=
  flags.getLsbD f.bit

/-- The degrading flags of R93. -/
def degradingFlags : List RecordFlag :=
  [.sourceRepaired, .gainAbsent, .gainLoading, .gainFormat, .toneAbsent, .toneLoading, .toneFormat,
    .gainCoverage, .exposureClamped]

/-- Some degrading flag is set (R93). -/
def isDegraded (flags : BitVec 15) : Bool :=
  degradingFlags.any (hasFlag flags)

/-- The roles a table is latched for (R34). -/
inductive TableRole where
  | gain
  | mesh
  | tone
deriving DecidableEq, Repr

/-- The record flag of a table's failure, with the prefix of its role (R34). -/
def failureFlag : TableRole → TableFailure → RecordFlag
  | .gain, .absent => .gainAbsent
  | .gain, .loading => .gainLoading
  | .gain, .format => .gainFormat
  | .mesh, .absent => .meshAbsent
  | .mesh, .loading => .meshLoading
  | .mesh, .format => .meshFormat
  | .tone, .absent => .toneAbsent
  | .tone, .loading => .toneLoading
  | .tone, .format => .toneFormat

end Sys2Proof.Machine
end

