-- ==== Sys2Proof/Machine/Operands.lean ====
section
/-! DEFINITION. Operand forms and wire layouts (spec/11 11.8, R171 to R176): numbers in bytes, the two CRCs,
downlink packets and payload fields, camera packets, table header words, uplink packets and frame records. -/

namespace Sys2Proof.Machine

/-! ### Numbers in bytes (R171) -/

/-- `n` in `k` bytes, least significant byte first (R171). -/
def leBytes : Nat → Nat → List Byte
  | 0, _ => []
  | k + 1, n => BitVec.ofNat 8 n :: leBytes k (n / 256)

/-- The number that bytes carry, least significant byte first (R171). -/
def leNat : List Byte → Nat
  | [] => 0
  | b :: bs => b.toNat + 256 * leNat bs

/-- The number in the `k` bytes of a payload from offset `off` on. -/
def num (payload : List Byte) (off k : Nat) : Nat :=
  leNat ((payload.drop off).take k)

/-- An on-off switch: off is 0 and on is 1; another code names no value (R171). -/
def switch? : Nat → Option Bool
  | 0 => some false
  | 1 => some true
  | _ => none

/-- A number below `n`, or none when it is out of range. -/
def below? (n v : Nat) : Option (Fin n) :=
  if h : v < n then some ⟨v, h⟩ else none

/-- A flag as one byte (R171). -/
def flagByte (b : Bool) : Byte := if b then 1 else 0

/-- An optional number of `k` bytes: a presence byte, then the number (R171). That the presence byte is 1 for a
number and 0 for none, and that the number of none is zero, is the model's reading (log 12, DEDUCED). -/
def optBytes (k : Nat) : Option Nat → List Byte
  | none => 0 :: leBytes k 0
  | some n => 1 :: leBytes k n

/-! ### CRCs -/

/-- One bit of the CRC-32 register, least significant bit first: R160's generator polynomial reversed. -/
def crc32Bit (r : Word) : Word :=
  if r.getLsbD 0 then (r >>> 1) ^^^ 0xEDB88320#32 else r >>> 1

/-- One byte into the CRC-32 register, least significant bit first (R160). -/
def crc32Byte (r : Word) (b : Byte) : Word :=
  Nat.repeat crc32Bit 8 (r ^^^ b.setWidth 32)

/-- The CRC-32 of R160: register of all ones, inverted at the end. -/
def crc32 (bytes : List Byte) : Word :=
  ~~~ bytes.foldl crc32Byte (BitVec.allOnes 32)

/-- One bit of the CRC-16 register, most significant bit first: x^16 + x^12 + x^5 + 1 (R7). -/
def crc16Bit (r : Half) : Half :=
  if r.getLsbD 15 then (r <<< 1) ^^^ 0x1021#16 else r <<< 1

/-- One byte into the CRC-16 register, most significant bit first (R7). -/
def crc16Byte (r : Half) (b : Byte) : Half :=
  Nat.repeat crc16Bit 8 (r ^^^ (b.setWidth 16 <<< 8))

/-- The CRC-16 of R7: register of all ones, no final inversion. -/
def crc16 (bytes : List Byte) : Half :=
  bytes.foldl crc16Byte (BitVec.allOnes 16)

/-! ### Commands and downlink packets (R171, R172) -/

/-- A command's code (11 11.7). -/
def Command.code : Command → Byte
  | .identify => 1
  | .getStatus => 2
  | .clearStatus => 3
  | .readCounters => 4
  | .setNoticeMask => 5
  | .softReset => 6
  | .setCamera => 7
  | .cameraEnable => 8
  | .setBlackLevel => 9
  | .writeDescriptor => 10
  | .readDescriptor => 11
  | .clearAccessedDescriptor => 12
  | .lockDescriptor => 13
  | .unlockDescriptor => 14
  | .lockDownDescriptor => 15
  | .setProtectionWindow => 16
  | .protectionLock => 17
  | .loadOpen => 18
  | .loadData => 19
  | .loadCommit => 20
  | .loadCancel => 21
  | .streamOpen => 22
  | .streamData => 23
  | .streamCancel => 24
  | .readTable => 25
  | .writeView => 26
  | .readView => 27
  | .viewActivate => 28
  | .viewHold => 29
  | .viewDisable => 30
  | .engineAbort => 31
  | .setTimeTag => 32
  | .readRecords => 33
  | .recallFrame => 34
  | .recallLatest => 35
  | .uplinkPause => 36
  | .uplinkResume => 37
  | .uplinkFlush => 38

/-- A command byte names a command: 1 to 38 (R172). -/
def namesCommand (b : Byte) : Bool :=
  decide (1 ≤ b.toNat ∧ b.toNat ≤ 38)

/-- The one payload length of a command (R171); Load Data and Stream Data have none fixed. Each parameter
takes the fewest of 1, 2 and 4 bytes that hold its stated range, in the order its rule names them. -/
def Command.payloadLength : Command → Option Nat
  | .identify | .getStatus => some 0
  | .clearStatus => some 2
  | .readCounters => some 3
  | .setNoticeMask => some 1
  | .softReset => some 0
  | .setCamera => some 15
  | .cameraEnable => some 2
  | .setBlackLevel => some 3
  | .writeDescriptor => some 10
  | .readDescriptor => some 2
  | .clearAccessedDescriptor => some 8
  | .lockDescriptor | .unlockDescriptor | .lockDownDescriptor => some 1
  | .setProtectionWindow => some 3
  | .protectionLock => some 0
  | .loadOpen => some 7
  | .loadData => none
  | .loadCommit | .loadCancel => some 0
  | .streamOpen => some 9
  | .streamData => none
  | .streamCancel => some 0
  | .readTable => some 6
  | .writeView => some 34
  | .readView | .viewActivate | .viewHold | .viewDisable => some 1
  | .engineAbort => some 1
  | .setTimeTag => some 5
  | .readRecords => some 5
  | .recallFrame => some 4
  | .recallLatest => some 1
  | .uplinkPause | .uplinkResume | .uplinkFlush => some 0

/-- The payload has the length R171 fixes for the command; the two data commands check their own (R163). -/
def Command.lengthFits (c : Command) (payload : List Byte) : Bool :=
  match c.payloadLength with
  | none => true
  | some n => payload.length == n

/-- A downlink packet that has passed R160. -/
structure Inbound where
  destination : Byte
  tag : Byte
  command : Byte
  payload : List Byte
deriving DecidableEq, Repr

/-- The checks of R160 on a received packet, by the layout of R172: none when it is discarded. -/
def parseDownlink : List Byte → Option Inbound
  | s0 :: s1 :: destination :: tag :: command :: l0 :: l1 :: rest =>
    let length := leNat [l0, l1]
    let payload := rest.take length
    if s0 = 0xE6 ∧ s1 = 0x19 ∧ length ≤ Config.maxPayload ∧ rest.length = length + 4 ∧
        leBytes 4 (crc32 (destination :: tag :: command :: l0 :: l1 :: payload)).toNat
          = rest.drop length then
      some ⟨destination, tag, command, payload⟩
    else none
  | _ => none

/-- The 4-byte words of a Load Data or Stream Data payload (R171); none when it holds no whole number. -/
def payloadWords : List Byte → Option (List Word)
  | [] => some []
  | a :: b :: c :: d :: rest => (payloadWords rest).map ((d ++ c ++ b ++ a) :: ·)
  | _ => none

/-! ### Camera packets (R4, R7, R174) -/

/-- The fields of a Frame Start; `kind` is none for the code that names no kind (R174). -/
structure FrameStartFields where
  sequence : Half
  width : Nat
  height : Nat
  exposure : Half
  level : Fin 8
  kind : Option FrameKind
  marker : Bool
  axisX : BitVec 12
  axisY : BitVec 12
  odometer : Word
deriving DecidableEq, Repr

/-- The frame kind of a code (R174). -/
def frameKind? : Nat → Option FrameKind
  | 0 => some .normal
  | 1 => some .dark
  | 2 => some .test
  | _ => none

/-- A Frame Start by its layout; none when the kind byte or the length differs (R3, R174). -/
def parseFrameStart : List Byte → Option FrameStartFields
  | [k, s0, s1, w0, w1, h0, h1, e0, e1, attr, a0, a1, a2, o0, o1, o2, o3] =>
    if k = 1 then
      some
        { sequence := s1 ++ s0
          width := leNat [w0, w1]
          height := leNat [h0, h1]
          exposure := e1 ++ e0
          level := (attr.extractLsb' 0 3).toFin
          kind := frameKind? (attr.extractLsb' 3 2).toNat
          marker := attr.getLsbD 5
          axisX := (a2 ++ a1 ++ a0).extractLsb' 0 12
          axisY := (a2 ++ a1 ++ a0).extractLsb' 12 12
          odometer := o3 ++ o2 ++ o1 ++ o0 }
    else none
  | _ => none

/-- The header a port keeps from a Frame Start whose kind code names `kind` (R4). -/
def FrameStartFields.header (f : FrameStartFields) (kind : FrameKind) : FrameHeader where
  width := f.width
  height := f.height
  copy :=
    { sequence := f.sequence
      exposure := f.exposure
      level := f.level
      kind := kind
      axisX := f.axisX
      axisY := f.axisY
      odometer := f.odometer
      marker := f.marker }

/-- A Line's line number, pixel field and whether its CRC-16 matches (R7, R174). -/
structure LineFields where
  number : Nat
  pixels : List Byte
  crcMatches : Bool
deriving DecidableEq, Repr

/-- A Line by its layout; none when the kind byte differs or the packet is too short for its kind byte, line
number and CRC-16 (R3). The CRC-16 is carried least significant byte first (R171; log 14). -/
def parseLine : List Byte → Option LineFields
  | k :: n0 :: n1 :: rest =>
    if k = 2 ∧ 2 ≤ rest.length then
      let field := rest.take (rest.length - 2)
      some
        { number := leNat [n0, n1]
          pixels := field
          crcMatches := leBytes 2 (crc16 (n0 :: n1 :: field)).toNat == rest.drop (rest.length - 2) }
    else none
  | _ => none

/-- A Line is good for width `w`: exactly w pixel codes, w·3/2 bytes, and a matching CRC-16 (R7, R174). -/
def LineFields.good (l : LineFields) (w : Nat) : Bool :=
  l.crcMatches && 2 * l.pixels.length == 3 * w

/-- Pixel codes, packed two codes to three bytes (R174). -/
def unpackPixels : List Byte → List Pixel
  | b0 :: b1 :: b2 :: rest =>
    (b1.extractLsb' 0 4 ++ b0) :: (b2 ++ b1.extractLsb' 4 4) :: unpackPixels rest
  | _ => []

/-- A Frame End's lines-sent count; none when the kind byte or the length differs (R3, R174). -/
def parseFrameEnd : List Byte → Option Nat
  | [k, l0, l1] => if k = 3 then some (leNat [l0, l1]) else none
  | _ => none

/-! ### Table words (R31 to R33, R101, R176) -/

/-- `len` bits of a word from bit `lo` on, as a number. -/
def bits (w : Word) (lo len : Nat) : Nat := (w.extractLsb' lo len).toNat

/-- The low (even `m`) or high (odd `m`) half of a word (02 2.4). -/
def halfOf (w : Word) (m : Nat) : Nat :=
  if m % 2 = 0 then bits w 0 16 else bits w 16 16

/-- The header of a table in a role, when the tag is the role's and every dimension lies in its range
(R34, checks 4 and 5; R31, R32, R33; layout R176). -/
def parseHeader (role : TableRole) (w : Word) : Option TableHeader :=
  match role with
  | .gain =>
    let gw := bits w 8 7
    let gh := bits w 15 7
    let cw := bits w 22 4
    if bits w 0 8 = 1 ∧ 2 ≤ gw ∧ gw ≤ 65 ∧ 2 ≤ gh ∧ gh ≤ 65 ∧ 3 ≤ cw ∧ cw ≤ 8 then
      some (.gain gw gh cw) else none
  | .mesh =>
    let mw := bits w 8 8
    let mh := bits w 16 8
    let k := bits w 24 3
    if bits w 0 8 = 2 ∧ 2 ≤ mw ∧ mw ≤ 129 ∧ 2 ≤ mh ∧ mh ≤ 129 ∧ 2 ≤ k ∧ k ≤ 6 then
      some (.mesh mw mh k) else none
  | .tone =>
    let nodes := bits w 8 9
    if bits w 0 8 = 3 ∧ nodes = 257 then some (.tone nodes) else none

/-- The size of a table in words, from its header (02 2.4). -/
def TableHeader.size : TableHeader → Nat
  | .gain gw gh _ => 1 + (gw * gh + 1) / 2
  | .mesh mw mh _ => 1 + mw * mh
  | .tone nodes => 1 + (nodes + 1) / 2

/-! ### Codes of enumerations (R171) -/

/-- Codes of the completion statuses (R173: in the order of 11.2). -/
def Status.code : Status → Byte
  | .ok => 0
  | .done => 1
  | .badLength => 2
  | .unknownCommand => 3
  | .badParam => 4
  | .busy => 5
  | .sequence => 6
  | .incomplete => 7
  | .descRange => 8
  | .descLocked => 9
  | .limit => 10
  | .protectedWords => 11
  | .regionPinned => 12
  | .viewState => 13
  | .slotConflict => 14
  | .stale => 15
  | .absent => 16
  | .starting => 17

/-- Granularity codes, in listed order (R171). -/
def Granularity.code : Granularity → Byte
  | .word => 0
  | .block64 => 1

/-- Granularity of a code. -/
def granularity? : Nat → Option Granularity
  | 0 => some .word
  | 1 => some .block64
  | _ => none

/-- Table type codes, in the order of the descriptor fields of 02 2.2 (log 11). -/
def TableType.code : TableType → Byte
  | .untyped => 0
  | .gain => 1
  | .mesh => 2
  | .tone => 3

/-- Table type of a code in Write Descriptor: NONE is none of GAIN, MESH and TONE (R23; log 11). -/
def tableType? : Nat → Option TableType
  | 1 => some .gain
  | 2 => some .mesh
  | 3 => some .tone
  | _ => none

/-- Lock state codes, in listed order (02 2.3). -/
def LockState.code : LockState → Byte
  | .unlocked => 0
  | .locked => 1
  | .lockedDown => 2

/-- Side of a code: BOTTOM, TOP (R38). -/
def side? : Nat → Option Side
  | 0 => some .bottom
  | 1 => some .top
  | _ => none

/-- Output format codes (04 4.1). -/
def Format.code : Format → Byte
  | .code10 => 0
  | .code8 => 1

/-- Output format of a code. -/
def format? : Nat → Option Format
  | 0 => some .code10
  | 1 => some .code8
  | _ => none

/-- Scheme codes (04 4.1). -/
def Scheme.code : Scheme → Byte
  | .unbuffered => 0
  | .single => 1
  | .double => 2
  | .ring => 3

/-- Scheme of a code. -/
def scheme? : Nat → Option Scheme
  | 0 => some .unbuffered
  | 1 => some .single
  | 2 => some .double
  | 3 => some .ring
  | _ => none

/-- Kind code of a forwarding class (04 4.1). -/
def ForwardClass.code : ForwardClass → Byte
  | .off => 0
  | .every => 1
  | .decimate _ => 2
  | .spacing _ => 3
  | .marker _ => 4

/-- Number of a forwarding class; 0 for OFF and EVERY (log 20). -/
def ForwardClass.number : ForwardClass → Nat
  | .off => 0
  | .every => 0
  | .decimate n => n
  | .spacing d => d
  | .marker k => k

/-- The forwarding class of a kind code and a number in range (R61, 04 4.1). -/
def forwardClass? (kind number : Nat) : Option ForwardClass :=
  match kind with
  | 0 => some .off
  | 1 => some .every
  | 2 => if 2 ≤ number ∧ number ≤ 255 then some (.decimate number) else none
  | 3 => if 1 ≤ number ∧ number ≤ 65535 then some (.spacing number) else none
  | 4 => if 1 ≤ number ∧ number ≤ 255 then some (.marker number) else none
  | _ => none

/-- View state codes, in the order of 04 4.3. -/
def ViewState.code : ViewState → Byte
  | .disabled => 0
  | .active => 1
  | .draining => 2
  | .held => 3
  | .closing => 4

/-- Record status codes (R175). -/
def RecordStatus.code : RecordStatus → Byte
  | .inProgress => 0
  | .complete => 1
  | .degraded => 2
  | .fault => 3
  | .skipped => 4
  | .aborted => 5

/-- Codes of a table failure in a VIEW_FAULT notice, in the order of R165. -/
def TableFailure.code : TableFailure → Byte
  | .absent => 0
  | .loading => 1
  | .format => 2

/-! ### Frame records and uplink packets (R173, R175) -/

/-- The slot number of an output slot's index (R134: slots 12 to 63). -/
def slotNumber (slot : Fin 52) : Nat := slot.val + 12

/-- Byte 18 of a frame record: the parts present (R175). -/
def partsPresent (r : Record) : Nat :=
  (if r.tagFinal.isSome then 1 else 0) + (if r.mark.isSome then 2 else 0)
    + (if r.statistics.isSome then 4 else 0) + (if r.histogram.isSome then 8 else 0)

/-- The 4-byte counts of a histogram part, zero when it is absent (R175). -/
def histogramBytes : Option (Vector Nat 16) → List Byte
  | none => List.replicate 64 0
  | some bins => bins.toList.flatMap (leBytes 4)

/-- The 106 bytes of a frame record (R175). -/
def recordBytes (r : Record) : List Byte :=
  leBytes 4 r.number.toNat ++ leBytes 1 r.view.val ++ leBytes 1 r.camera.val
    ++ leBytes 2 r.sequence.toNat ++ leBytes 4 r.odometer.toNat ++ leBytes 1 r.level.val
    ++ [flagByte r.marker] ++ leBytes 2 r.exposure.toNat ++ leBytes 1 r.repairs
    ++ [r.status.code] ++ leBytes 1 (partsPresent r) ++ leBytes 2 r.flags.toNat
    ++ leBytes 4 r.tagStart.toNat ++ leBytes 4 ((r.tagFinal.map BitVec.toNat).getD 0)
    ++ leBytes 1 ((r.mark.map fun m => slotNumber m.slot).getD 0)
    ++ leBytes 2 ((r.mark.map fun m => m.generation.toNat).getD 0)
    ++ leBytes 2 ((r.statistics.map Statistics.mean).getD 0)
    ++ leBytes 4 ((r.statistics.map Statistics.saturated).getD 0)
    ++ leBytes 4 ((r.statistics.map Statistics.outOfField).getD 0)
    ++ histogramBytes r.histogram

/-- One packet of the Uplink Port (R173). -/
inductive UplinkPacket where
  | response (r : Response)
  | notice (n : Notice)
  | relay (bytes : List Byte)
  | record (r : Record)
  | line (record : RecordNumber) (number : Nat) (codes : List Byte)
  | endPacket (record : RecordNumber) (linesSent : Nat) (truncated : Bool)
deriving DecidableEq, Repr

/-- The kind byte of an uplink packet (R173). -/
def UplinkPacket.kind : UplinkPacket → Byte
  | .response _ => 1
  | .notice _ => 2
  | .relay _ => 3
  | .record _ => 4
  | .line _ _ _ => 5
  | .endPacket _ _ _ => 6

/-- The fields of a notice after its kind byte (R173). -/
def noticeFields : Notice → List Byte
  | .cameraDamaged camera sequence repairs =>
    leBytes 1 camera.val ++ leBytes 2 sequence.toNat ++ leBytes 1 repairs
  | .viewFault view record failure => leBytes 1 view.val ++ leBytes 4 record.toNat ++ [failure.code]
  | .ringWrap view length record =>
    leBytes 1 view.val ++ leBytes 1 length ++ leBytes 4 record.toNat
  | .recordRollover record => leBytes 4 record.toNat
  | .forwardDrop view record isNew =>
    leBytes 1 view.val ++ leBytes 4 record.toNat ++ [flagByte isNew]

/-- The payload of an uplink packet (R173). -/
def UplinkPacket.payload : UplinkPacket → List Byte
  | .response r => [r.tag, r.command, r.status.code] ++ r.data
  | .notice n => leBytes 1 n.kindCode ++ noticeFields n
  | .relay bytes => bytes
  | .record r => recordBytes r
  | .line n v codes => leBytes 4 n.toNat ++ leBytes 2 v ++ codes
  | .endPacket n linesSent truncated =>
    leBytes 4 n.toNat ++ leBytes 2 linesSent ++ [flagByte truncated]

/-- The bytes of an uplink packet from `node` (R173): sync, source, kind, payload length, payload and the
CRC-32 from the source byte to the last payload byte. -/
def uplinkBytes (node : Byte) (p : UplinkPacket) : List Byte :=
  let body := node :: p.kind :: leBytes 2 p.payload.length ++ p.payload
  [0xE6, 0x1A] ++ body ++ leBytes 4 (crc32 body).toNat

/-- The ten bits a CODE10 line carries of a cell (R173): its code; free when the cell is above 1023, of which the
spec says nothing (log 7, DESIGN CHOICE). -/
def carriedBits (c : Cell) : BitVec 10 :=
  if c.toNat < 1024 then c.setWidth 10 else Config.wideCodeBits c

/-- Four CODE10 codes in five bytes: the low 8 bits of each, then their high 2 bits, code 0 in bits 0 and 1
(R173). A cell above 1023 is carried by free bits (log 7). -/
def packCode10 : List Cell → List Byte
  | c0 :: c1 :: c2 :: c3 :: rest =>
    let low := fun (c : Cell) => (carriedBits c).setWidth 8
    let high := fun (c : Cell) => (carriedBits c).extractLsb' 8 2
    low c0 :: low c1 :: low c2 :: low c3 :: (high c3 ++ high c2 ++ high c1 ++ high c0) :: packCode10 rest
  | _ => []

/-- One CODE8 code in its byte (R173); a code above 255 leaves the byte free (log 7, DESIGN
CHOICE). -/
def packCode8 (c : Cell) : Byte :=
  if c.toNat < 256 then c.setWidth 8 else Config.wideCodeByte c

/-- The code bytes of a line packet (R156, R173). -/
def packLine : Format → List Cell → List Byte
  | .code10, cells => packCode10 cells
  | .code8, cells => cells.map packCode8

end Sys2Proof.Machine
end

