-- ==== Sys2Proof/Machine/Ops.lean ====
section
/-! DEFINITION. The operations the commands share: memories, access to the blocks' state, notices and
responses, the Command Interpreter's checks, protection, pins and the reservation, source references,
view waiting states, and the Forward Queue. -/

namespace Sys2Proof.Machine

/-! ### Sparse memories: lists of (address, value), addresses strictly rising -/

/-- The value listed at address `a`. -/
def findAt {α : Type} (a : Nat) : List (Nat × α) → Option α
  | [] => none
  | (b, v) :: m => if a = b then some v else findAt a m

/-- The list with `v` at address `a`. -/
def putAt {α : Type} (a : Nat) (v : α) : List (Nat × α) → List (Nat × α)
  | [] => [(a, v)]
  | (b, w) :: m =>
    if a < b then (a, v) :: (b, w) :: m
    else if a = b then (a, v) :: m
    else (b, w) :: putAt a v m

/-- The list with nothing at address `a`. -/
def dropAt {α : Type} (a : Nat) : List (Nat × α) → List (Nat × α)
  | [] => []
  | (b, w) :: m => if a = b then m else (b, w) :: dropAt a m

/-- Addresses strictly rise. -/
def rising {α : Type} : List (Nat × α) → Bool
  | [] => true
  | [_] => true
  | (a, _) :: (b, w) :: m => decide (a < b) && rising ((b, w) :: m)

/-- A Table Store word; an unlisted address reads 0, the value the start-up sweep writes (R21). -/
def storeRead (store : List (Nat × Word)) (a : Nat) : Word := (findAt a store).getD 0

/-- One word written; a word 0 is not listed, and no address past the store exists (R21). -/
def storeWrite (store : List (Nat × Word)) (a : Nat) (w : Word) : List (Nat × Word) :=
  if Config.storeWords ≤ a then store
  else if w = 0 then dropAt a store
  else putAt a w store

/-- Words written from address `a` on, in order (R47, R52). -/
def storeWriteAll (store : List (Nat × Word)) : Nat → List Word → List (Nat × Word)
  | _, [] => store
  | a, w :: ws => storeWriteAll (storeWrite store a w) (a + 1) ws

/-- `count` words read from address `a` on, in address order (R56). -/
def storeReadAll (store : List (Nat × Word)) (a : Nat) : Nat → List Word
  | 0 => []
  | n + 1 => storeRead store a :: storeReadAll store (a + 1) n

/-- The canonical form of the Table Store: addresses strictly rising inside the store, no word 0 listed. -/
def storeCanonical (store : List (Nat × Word)) : Bool :=
  rising store && store.all fun p => decide (p.1 < Config.storeWords) && p.2 != 0

/-- The canonical form of every memory of the part: the Table Store, the source slots and the output slots. -/
def Memory.wf (s : State) : Bool :=
  storeCanonical s.tableStore && every s.sourceSlots (fun x => rising x.rows)
    && every s.outputSlots (fun x => rising x.cells)

/-- The cell of an output slot; a cell nothing has written is a free value (R134; log 6). -/
def readCell (s : State) (slot : Fin 52) (cell : Nat) : Cell :=
  (findAt cell (pick s.outputSlots slot).cells).getD (Config.unwrittenCell s.epoch (slotNumber slot) cell)

/-- The pixel P(x, y) of a source slot; one the intake has not written is a free value (R134; log 6). -/
def readPixel (s : State) (slot : Fin 12) (x y : Nat) : Pixel :=
  match findAt y (pick s.sourceSlots slot).rows with
  | some row => row.getD x (Config.unwrittenPixel s.epoch slot.val y x)
  | none => Config.unwrittenPixel s.epoch slot.val y x

/-! ### Updates of one block's part of the state -/

/-- Change one Camera Port. -/
def State.updPort (s : State) (c : Fin 4) (f : Port → Port) : State :=
  { s with ports := upd s.ports c f }

/-- Change one source slot. -/
def State.updSource (s : State) (i : Fin 12) (f : SourceSlot → SourceSlot) : State :=
  { s with sourceSlots := upd s.sourceSlots i f }

/-- Change one output slot. -/
def State.updOutput (s : State) (i : Fin 52) (f : OutputSlot → OutputSlot) : State :=
  { s with outputSlots := upd s.outputSlots i f }

/-- Change one descriptor. -/
def State.updDescriptor (s : State) (d : Fin 64) (f : Descriptor → Descriptor) : State :=
  { s with descriptors := upd s.descriptors d f }

/-- Change one view. -/
def State.updView (s : State) (v : Fin 16) (f : View → View) : State :=
  { s with views := upd s.views v f }

/-- Change the counters of one camera (R18). -/
def State.countCamera (s : State) (c : Fin 4) (f : CameraCounters → CameraCounters) : State :=
  s.updPort c fun p => { p with counters := f p.counters }

/-- Change the counters of one view (R76). -/
def State.countView (s : State) (v : Fin 16) (f : ViewCounters → ViewCounters) : State :=
  s.updView v fun w => { w with counters := f w.counters }

/-- Change the counters of R167. -/
def State.countInterface (s : State) (f : InterfaceCounters → InterfaceCounters) : State :=
  { s with interfaceCounters := f s.interfaceCounters }

/-- Set a sticky flag of the Status Word; one already set stays set (R166). -/
def State.setSticky (s : State) (f : StickyFlag) : State :=
  { s with sticky := withBit s.sticky f.bit }

/-- The record of number `n`, when the list holds it (R139). -/
def State.findRecord (s : State) (n : RecordNumber) : Option Record :=
  s.records.find? fun r => r.number == n

/-- Change the record of number `n`. -/
def State.updRecord (s : State) (n : RecordNumber) (f : Record → Record) : State :=
  { s with records := s.records.map fun r => if r.number = n then f r else r }

/-- Raise a notice (R165): not raised when its kind is disabled; dropped, with NOTICE_LOST and a count, when
the queue holds 16. -/
def State.raise (s : State) (n : Notice) : State :=
  if s.noticeMask.getLsbD n.kindCode then
    if s.notices.length < Config.noticePlaces then { s with notices := s.notices ++ [n] }
    else (s.setSticky .noticeLost).countInterface fun k => { k with noticesLost := satInc k.noticesLost }
  else s

/-! ### Spans, protection, pins and the reservation -/

/-- The span of a descriptor in words (R22). -/
def Descriptor.span (d : Descriptor) : Nat :=
  match d.granularity with
  | .word => d.limit + 1
  | .block64 => (d.limit + 1) * 64

/-- The words a descriptor covers (R22). -/
def Descriptor.words (d : Descriptor) : Span := ⟨d.base, d.span⟩

/-- Two runs of words share a word. -/
def Span.overlaps (a b : Span) : Bool :=
  decide (max a.first b.first < min (a.first + a.count) (b.first + b.count))

/-- Every word of the run lies in the Table Store (R21). -/
def Span.inStore (a : Span) : Bool := decide (a.first + a.count ≤ Config.storeWords)

/-- The sized range of the protection window (R37, step 1). -/
def ProtectionWindow.sized (w : ProtectionWindow) : Span :=
  let z := if w.size.val = 0 then 0 else 2 ^ (10 + w.size.val)
  match w.side with
  | .bottom => ⟨0, z⟩
  | .top => ⟨Config.storeWords - z, z⟩

/-- Word `a` lies in the protected set (R37). -/
def ProtectionWindow.protects (w : ProtectionWindow) (a : Nat) : Bool :=
  decide (a < Config.storeWords) &&
    (decide (w.sized.first ≤ a ∧ a < w.sized.first + w.sized.count) != w.complement)

/-- Some word of the run lies in the protected set (R37, R47, R51). -/
def ProtectionWindow.touches (w : ProtectionWindow) (t : Span) : Bool :=
  if w.complement then
    decide (0 < t.count ∧ (t.first < w.sized.first ∨ w.sized.first + w.sized.count < t.first + t.count))
  else w.sized.overlaps t

/-- Some word of the run lies in a pin of the job in flight (R40). -/
def State.pinned (s : State) (t : Span) : Bool := s.pins.any t.overlaps

/-- The stream reservation: the target of the open stream (R41). -/
def State.reservation (s : State) : Option Span :=
  match s.loadUnit with
  | .streaming _ target _ => some target
  | .idle => none
  | .loading _ _ _ => none

/-- Words of the open stream written so far; 0 with no stream (R42). -/
def State.wordsStreamed (s : State) : Nat :=
  match s.loadUnit with
  | .streaming _ _ n => n
  | .idle => 0
  | .loading _ _ _ => 0

/-- Code of the load state: IDLE, LOADING, STREAMING (R42, R166). -/
def loadStateCode : LoadUnit → Byte
  | .idle => 0
  | .loading _ _ _ => 1
  | .streaming _ _ _ => 2

/-- Cancel the open patch load: buffer and load fields gone, LOAD_SEQUENCE set (R44). -/
def State.cancelLoad (s : State) : State :=
  { s.setSticky .loadSequence with loadUnit := .idle }

/-! ### Executing a command (R163) -/

/-- What a command's own rule answers: the state it leaves and its response, or a fault. -/
inductive Answer where
  | reply (s : State) (status : Status) (data : List Byte)
  | stop (f : Fault)
deriving DecidableEq, Repr

/-- A refusal that changes nothing. -/
def refuse (s : State) (status : Status) : Answer := .reply s status []

/-- OK with no result data. -/
def accept (s : State) : Answer := .reply s .ok []

/-- The commands that run while a patch load is open and leave it open, Soft Reset among them (R43). -/
def Command.runsWhileLoading : Command → Bool
  | .loadData | .loadCommit | .loadCancel => true
  | .getStatus | .identify => true
  | .readDescriptor | .readView | .readTable | .readRecords | .readCounters => true
  | .softReset => true
  | .clearStatus | .setNoticeMask | .setCamera | .cameraEnable | .setBlackLevel | .writeDescriptor
  | .clearAccessedDescriptor | .lockDescriptor | .unlockDescriptor | .lockDownDescriptor
  | .setProtectionWindow | .protectionLock | .loadOpen | .streamOpen | .streamData | .streamCancel
  | .writeView | .viewActivate | .viewHold | .viewDisable | .engineAbort | .setTimeTag | .recallFrame
  | .recallLatest | .uplinkPause | .uplinkResume | .uplinkFlush => false

/-- Only Identify and Get Status are served while STARTING (R163). -/
def Command.runsWhileStarting : Command → Bool
  | .identify | .getStatus => true
  | .clearStatus | .readCounters | .setNoticeMask | .softReset | .setCamera | .cameraEnable
  | .setBlackLevel | .writeDescriptor | .readDescriptor | .clearAccessedDescriptor | .lockDescriptor
  | .unlockDescriptor | .lockDownDescriptor | .setProtectionWindow | .protectionLock | .loadOpen
  | .loadData | .loadCommit | .loadCancel | .streamOpen | .streamData | .streamCancel | .readTable
  | .writeView | .readView | .viewActivate | .viewHold | .viewDisable | .engineAbort | .setTimeTag
  | .readRecords | .recallFrame | .recallLatest | .uplinkPause | .uplinkResume | .uplinkFlush => false

/-- The load-state check of R43: none when the command proceeds to its own checks. -/
def loadStateCheck (c : Command) (s : State) : Option Answer :=
  match s.loadUnit with
  | .idle => none
  | .loading _ _ _ => if c.runsWhileLoading then none else some (.reply s.cancelLoad .sequence [])
  | .streaming _ _ _ => if c = .loadOpen ∨ c = .streamOpen then some (refuse s .busy) else none

/-- The checks of R163 on a packet for this node, in their order, and then the command's own rule. -/
def checked (c : Command) (payload : List Byte) (rule : List Byte → State → Answer) (s : State) : Answer :=
  if s.starting && !c.runsWhileStarting then refuse s .starting
  else
    match loadStateCheck c s with
    | some a => a
    | none => if c.lengthFits payload then rule payload s else refuse s .badLength

/-- One response at the tail of the Response Queue (R163). -/
def State.respond (s : State) (p : Packet) (status : Status) (data : List Byte) : State :=
  { s with responses := s.responses ++ [⟨p.tag, p.command, status, data⟩] }

/-- The end of a packet's execution: its response placed (R163). -/
def answerTo (p : Packet) : Answer → Result State
  | .reply s status data => .next (s.respond p status data)
  | .stop f => .fault f

/-- Execute the packet at the head of the Command Buffer, when it is a packet of command `c` for this node and
the Response Queue has a free place; otherwise the row's event does not take place (R163; log 1). -/
def runCommand (c : Command) (rule : List Byte → State → Answer) (s : State) : Result State :=
  match s.commandBuffer with
  | [] => .next s
  | p :: rest =>
    if p.broadcast = false ∧ p.command = c.code ∧ s.responses.length < Config.responsePlaces then
      answerTo p (checked c p.payload rule { s with commandBuffer := rest })
    else .next s

/-- A broadcast packet that is executed: Set Time Tag or Soft Reset of the right length, not while STARTING
(R163). -/
def broadcastRuns (s : State) (p : Packet) : Bool :=
  !s.starting &&
    ((p.command == Command.setTimeTag.code && Command.setTimeTag.lengthFits p.payload)
      || (p.command == Command.softReset.code && Command.softReset.lengthFits p.payload))

/-- As `runCommand`, for the two commands also executed by broadcast, then without a response (R163). -/
def runBroadcastable (c : Command) (rule : List Byte → State → Answer) (effect : List Byte → State → State)
    (s : State) : Result State :=
  match s.commandBuffer with
  | [] => .next s
  | p :: rest =>
    if p.broadcast then
      if broadcastRuns s p ∧ p.command = c.code then .next (effect p.payload { s with commandBuffer := rest })
      else .next s
    else runCommand c rule s

/-! ### Views and their jobs -/

/-- The scheme length of a view (04 4.1). -/
def JobParams.schemeLength (p : JobParams) : Nat :=
  match p.scheme with
  | .unbuffered => 0
  | .single => 1
  | .double => 2
  | .ring => p.ringLength

/-- The slot range of a view, by slot number; empty for scheme NONE (04 4.1). -/
def JobParams.slotRange (p : JobParams) : Span := ⟨p.slotBase, p.schemeLength⟩

/-- The used entries of a gain set, in entry order (04 4.1). -/
def usedEntries (g : Vector GainEntry 4) : List GainEntry := g.toList.filter fun e => e.selector != 0

/-- The view's jobs in the Conditioning Queue (R65). -/
def State.queuedJobs (s : State) (v : Fin 16) : Nat := s.jobs.countP fun j => j.view == v

/-- The job in flight is the view's (R65). -/
def State.inFlightOf (s : State) (v : Fin 16) : Bool :=
  match s.flight with
  | some f => f.job.view == v
  | none => false

/-- The number of outstanding jobs of a view (R66). -/
def State.outstanding (s : State) (v : Fin 16) : Nat :=
  s.queuedJobs v + if s.inFlightOf v then 1 else 0

/-- The forwarding state reset (R64, R73). -/
def View.resetForwarding (w : View) : View :=
  { w with decimation := 0, lastOdometer := none, burst := 0 }

/-- A view on entering DISABLED (R73). -/
def View.disable (w : View) : View :=
  { w.resetForwarding with state := .disabled, ringPointer := 0, doubleIndex := 0 }

/-- A view that has lost its last outstanding job leaves its waiting state (R71). -/
def View.leaveWaiting (w : View) : View :=
  match w.state with
  | .draining => { w with state := .held }
  | .closing => w.disable
  | .disabled => w
  | .active => w
  | .held => w

/-- R71 for one view: it leaves its waiting state when it has no outstanding job. -/
def State.settle (s : State) (v : Fin 16) : State :=
  if s.outstanding v = 0 then s.updView v View.leaveWaiting else s

/-- A source slot loses one reference (R14). -/
def State.releaseSource (s : State) (i : Fin 12) : State :=
  s.updSource i fun x => { x with refs := x.refs - 1 }

/-- One queued job removed before its start: its source reference released and its view's cancelled counter
incremented (R70, R95). -/
def State.cancelJob (s : State) (j : Job) : State :=
  (s.releaseSource j.slot).countView j.view fun k => { k with cancelled := satInc k.cancelled }

/-- Remove the queued jobs that `gone` names, oldest first; the others keep their order (R70, R80, R95). -/
def State.removeJobs (s : State) (gone : Job → Bool) : State :=
  (s.jobs.filter gone).foldl State.cancelJob { s with jobs := s.jobs.filter fun j => !gone j }

/-! ### The Forward Queue (R150, R151) -/

/-- The queue with `e` after every entry of its priority or a higher one (R150; log 27). -/
def enqueue (e : ForwardEntry) (q : List ForwardEntry) : List ForwardEntry :=
  q.takeWhile (fun x => e.priority ≤ x.priority) ++ e :: q.dropWhile (fun x => e.priority ≤ x.priority)

/-- The lowest priority among the queued entries (R151). -/
def lowestPriority (q : List ForwardEntry) : Fin 4 := q.foldl (fun p e => min p e.priority) 3

/-- A drop under R151: counter, sticky flag and notice. -/
def State.reportDrop (s : State) (e : ForwardEntry) (isNew : Bool) : State :=
  ((s.countView e.view fun k => { k with forwardDrops := satInc k.forwardDrops }).setSticky
    .forwardDrop).raise (.forwardDrop e.view e.record isNew)

/-- Offer an entry to the Forward Queue (R151). -/
def State.offer (s : State) (e : ForwardEntry) : State :=
  let q := s.forwardQueue
  if q.length < Config.forwardPlaces then { s with forwardQueue := enqueue e q }
  else
    let low := lowestPriority q
    if low ≤ e.priority then
      match q.find? (fun x => x.priority == low) with
      | some old =>
        State.reportDrop { s with forwardQueue := enqueue e (q.eraseP fun x => x.priority == low) } old false
      | none => { s with forwardQueue := enqueue e q }
    else s.reportDrop e true

/-- The offered entry joins the queue: there is room, or an entry of no higher priority makes room (R151). -/
def State.hasRoomFor (s : State) (e : ForwardEntry) : Bool :=
  decide (s.forwardQueue.length < Config.forwardPlaces) ||
    decide (lowestPriority s.forwardQueue ≤ e.priority)

end Sys2Proof.Machine
end

