-- ==== Sys2Proof/Machine/Camera.lean ====
section
/-! DEFINITION. Camera Ports and source frames (spec/01): Frame Start, Line and Frame End, repair and damage,
posting with job creation (R81), and the commands Set Camera, Camera Enable and Set Black Level. -/

namespace Sys2Proof.Machine

/-! ### Source slots -/

/-- Source slot 3c + k of camera c (01 1.1). -/
def sourceSlot (c : Fin 4) (k : Fin 3) : Fin 12 := ⟨3 * c.val + k.val, by omega⟩

/-- A source slot is free: receiving flag clear and reference count 0 (R15). -/
def SourceSlot.free (x : SourceSlot) : Bool := !x.receiving && x.refs == 0

/-- The lowest-numbered free slot of a camera (R15). -/
def freeSlot (s : State) (c : Fin 4) : Option (Fin 12) :=
  if (pick s.sourceSlots (sourceSlot c 0)).free then some (sourceSlot c 0)
  else if (pick s.sourceSlots (sourceSlot c 1)).free then some (sourceSlot c 1)
  else if (pick s.sourceSlots (sourceSlot c 2)).free then some (sourceSlot c 2)
  else none

/-- Write one line of a source slot. -/
def State.writeRow (s : State) (i : Fin 12) (line : Nat) (row : List Pixel) : State :=
  s.updSource i fun x => { x with rows := putAt line row x.rows }

/-- Clear the receiving flag of a source slot. -/
def State.stopReceiving (s : State) (i : Fin 12) : State :=
  s.updSource i fun x => { x with receiving := false }

/-- Line `line` of a source slot as it stands, `w` codes; pixels nothing has written are free values (R111). -/
def readRow (s : State) (i : Fin 12) (line w : Nat) : List Pixel :=
  (List.range w).map fun x => readPixel s i x line

/-! ### Repair and damage -/

/-- The frame in `r` is DAMAGED, its repair count having reached `repairs` (R10). -/
def damageFrame (c : Fin 4) (r : Reception) (repairs : Nat) (s : State) : State :=
  (((((s.stopReceiving r.slot).updPort c fun p => { p with state := .discard }).countCamera c fun k =>
    { k with damagedFrames := satInc k.damagedFrames }).setSticky .cameraDamaged).raise
      (.cameraDamaged c r.header.copy.sequence repairs))

/-- The codes a repair of line e puts there (R9): line e − 1 as it stands, or floor(B/16) for line 0. -/
def repairRow (c : Fin 4) (r : Reception) (s : State) : List Pixel :=
  let p := pick s.ports c
  if r.expected = 0 then List.replicate p.width (BitVec.ofNat 12 (p.black.toNat / 16))
  else readRow s r.slot (r.expected - 1) p.width

/-- Repair the expected line (R9) and check the repair limit (R10); e becomes e + 1 when the frame survives.
Outside RECEIVE nothing is left to repair. -/
def repairLine (c : Fin 4) (s : State) : State :=
  match (pick s.ports c).state with
  | .receive r =>
    let t := (s.writeRow r.slot r.expected (repairRow c r s)).countCamera c fun k =>
      { k with linesRepaired := satInc k.linesRepaired }
    if (pick s.ports c).repairLimit < r.repairs + 1 then damageFrame c r (r.repairs + 1) t
    else
      t.updPort c fun p =>
        { p with state := .receive { r with expected := r.expected + 1, repairs := r.repairs + 1 } }
  | .off => s
  | .wait => s
  | .discard => s

/-- Repair `n` lines in ascending order; after damage the rest are not made (R8, R11). -/
def repairLines (c : Fin 4) : Nat → State → State
  | 0, s => s
  | n + 1, s => repairLines c n (repairLine c s)

/-! ### Posting -/

/-- A view admits a posted frame (R67). -/
def View.admits (w : View) (c : Fin 4) (h : HeaderCopy) : Bool :=
  w.state == .active && w.params.camera == c && w.params.levelMask.getLsbD h.level.val
    && w.params.kindMask.getLsbD h.kind.bit

/-- The queue's visit of one view at a posting (R81). -/
def visitView (job : Fin 16 → Job) (s : State) (v : Fin 16) : State :=
  if (pick s.views v).admits (job v).camera (job v).header then
    if s.jobs.length < Config.jobPlaces then
      (State.updSource { s with jobs := s.jobs ++ [job v] } (job v).slot fun x =>
        { x with refs := x.refs + 1 }).countView v fun k => { k with admitted := satInc k.admitted }
    else s.countView v fun k => { k with queueFullSkips := satInc k.queueFullSkips }
  else s

/-- The frame offered to the Conditioning Queue: the views in ascending number (R12 step 4, R81). -/
def offerFrame (c : Fin 4) (r : Reception) (s : State) : State :=
  (List.finRange 16).foldl (visitView fun v => ⟨r.slot, c, v, r.header.copy, r.repairs⟩) s

/-- The sequence check (R13). -/
def sequenceCheck (c : Fin 4) (sequence : Half) (s : State) : State :=
  let t := match (pick s.ports c).lastSequence with
    | none => s
    | some p =>
      if sequence = p + 1 then s
      else s.countCamera c fun k => { k with sequenceGaps := satInc k.sequenceGaps }
  t.updPort c fun p => { p with lastSequence := some sequence }

/-- The sum of the pixels of the dark window as they stand in the slot (R16, step 1). -/
def darkSum (s : State) (i : Fin 12) (d : DarkWindow) : Nat :=
  ((List.range d.h).map fun y =>
    ((List.range d.w).map fun x => (readPixel s i (d.x0 + x) (d.y0 + y)).toNat).sum).sum

/-- The window mean in units of 1/16 code (R16, step 2). -/
def mean16 (sum count : Nat) : Nat := (16 * sum + count / 2) / count

/-- The black level after a DARK frame of mean `m` (R16, steps 3 and 4); the division is a floor division. -/
def trackedBlack (black : Half) (m : Nat) : Half :=
  let next : Int := black.toNat + ((m : Int) - black.toNat + 4) / 8
  BitVec.ofNat 16 (min 65535 next.toNat)

/-- The dark-tracking update of a posting (R12 step 3, R16). -/
def trackBlack (c : Fin 4) (r : Reception) (s : State) : State :=
  let p := pick s.ports c
  if r.header.copy.kind = .dark ∧ p.darkTracking then
    let m := mean16 (darkSum s r.slot p.window) (p.window.w * p.window.h)
    s.updPort c fun p => { p with black := trackedBlack p.black m }
  else s

/-- Posting of the complete frame in `r` (R12). -/
def postFrame (c : Fin 4) (r : Reception) (s : State) : State :=
  let s1 := (s.updPort c fun p => { p with state := .wait }).countCamera c fun k =>
    { k with framesPosted := satInc k.framesPosted }
  let s2 := sequenceCheck c r.header.copy.sequence s1
  let s3 := trackBlack c r s2
  let s4 := offerFrame c r s3
  s4.stopReceiving r.slot

/-- Close the frame being received, with lines-sent count `sent` (R11). -/
def closeFrame (c : Fin 4) (r : Reception) (sent : Nat) (s : State) : State :=
  let h := (pick s.ports c).height
  let s1 := if sent = h then s
    else s.countCamera c fun k => { k with endMismatches := satInc k.endMismatches }
  let s2 := repairLines c (h - r.expected) s1
  match (pick s2.ports c).state with
  | .receive r2 => postFrame c r2 s2
  | .off => s2
  | .wait => s2
  | .discard => s2

/-! ### The camera packets -/

/-- A Frame Start in WAIT or DISCARD (R5). -/
def beginFrame (c : Fin 4) (f : FrameStartFields) (s : State) : State :=
  let p := pick s.ports c
  let reject := (s.updPort c fun p => { p with state := .discard }).countCamera c fun k =>
    { k with geometryRejects := satInc k.geometryRejects }
  match f.kind with
  | none => reject
  | some kind =>
    if f.width = p.width ∧ f.height = p.height then
      match freeSlot s c with
      | none =>
        (s.updPort c fun p => { p with state := .discard }).countCamera c fun k =>
          { k with noSlotDrops := satInc k.noSlotDrops }
      | some i =>
        (s.updSource i fun x => { x with receiving := true }).updPort c fun p =>
          { p with state := .receive ⟨i, f.header kind, 0, 0⟩ }
    else reject

/-- FRAME_START: a Frame Start packet on Camera Port `c` (R3, R5, R6). -/
def execFrameStart (c : Fin 4) (packet : List Byte) (s : State) : Result State :=
  match parseFrameStart packet with
  | none => .next s
  | some f =>
    match (pick s.ports c).state with
    | .off => .next s
    | .wait => .next (beginFrame c f s)
    | .discard => .next (beginFrame c f s)
    | .receive r => .next (beginFrame c f (closeFrame c r (pick s.ports c).height s))

/-- A good Line n, lines e to n − 1 having been repaired: it is written unless the frame was DAMAGED (R8). -/
def writeLine (c : Fin 4) (l : LineFields) (s : State) : State :=
  match (pick s.ports c).state with
  | .receive r =>
    (s.writeRow r.slot l.number (unpackPixels l.pixels)).updPort c fun p =>
      { p with state := .receive { r with expected := l.number + 1 } }
  | .off => s
  | .wait => s
  | .discard => s

/-- A Line in RECEIVE against the expected line (R8). -/
def takeLine (c : Fin 4) (r : Reception) (l : LineFields) (s : State) : State :=
  let p := pick s.ports c
  if p.height ≤ l.number then s
  else if l.number < r.expected then
    s.countCamera c fun k => { k with duplicateLines := satInc k.duplicateLines }
  else if l.good p.width then writeLine c l (repairLines c (l.number - r.expected) s)
  else
    (repairLines c (l.number - r.expected + 1) s).countCamera c fun k =>
      { k with badLines := satInc k.badLines }

/-- LINE: a Line packet on Camera Port `c` (R3, R8). -/
def execLine (c : Fin 4) (packet : List Byte) (s : State) : Result State :=
  match parseLine packet with
  | none => .next s
  | some l =>
    match (pick s.ports c).state with
    | .receive r => .next (takeLine c r l s)
    | .off => .next s
    | .wait => .next s
    | .discard => .next s

/-- FRAME_END: a Frame End packet on Camera Port `c` (R3, R11). -/
def execFrameEnd (c : Fin 4) (packet : List Byte) (s : State) : Result State :=
  match parseFrameEnd packet with
  | none => .next s
  | some sent =>
    match (pick s.ports c).state with
    | .receive r => .next (closeFrame c r sent s)
    | .off => .next s
    | .wait => .next s
    | .discard => .next s

/-- CAMERA_PACKET_IGNORED: a camera packet that is ignored changes no state and no counter (R3). -/
def execCameraPacketIgnored (_c : Fin 4) (_packet : List Byte) (s : State) : Result State := .next s

/-! ### The camera commands -/

/-- The expected line of a port; 0 outside RECEIVE (R19; log 28). -/
def Port.expectedLine (p : Port) : Nat :=
  match p.state with
  | .receive r => r.expected
  | .off => 0
  | .wait => 0
  | .discard => 0

/-- The repair count of a port; 0 outside RECEIVE (R19; log 28). -/
def Port.repairCount (p : Port) : Nat :=
  match p.state with
  | .receive r => r.repairs
  | .off => 0
  | .wait => 0
  | .discard => 0

/-- The range checks of Set Camera on width, height and repair limit (R1, step 1). -/
def cameraRangesHold (w h limit : Nat) : Bool :=
  decide (64 ≤ w ∧ w ≤ 2048 ∧ w % 16 = 0 ∧ 16 ≤ h ∧ h ≤ 1536 ∧ limit ≤ 15)

/-- The window checks of Set Camera with dark tracking on (R1, step 2). -/
def darkWindowFits (d : DarkWindow) (w h : Nat) : Bool :=
  decide (d.x0 % 16 = 0 ∧ d.y0 % 16 = 0 ∧ d.w % 16 = 0 ∧ d.h % 16 = 0 ∧ d.w ≠ 0 ∧ d.h ≠ 0
    ∧ d.x0 + d.w ≤ w ∧ d.y0 + d.h ≤ h)

/-- Some source slot of the camera has a reference count above 0 (R1, step 3). -/
def cameraReferenced (s : State) (c : Fin 4) : Bool :=
  (List.finRange 3).any fun k => decide (0 < (pick s.sourceSlots (sourceSlot c k)).refs)

/-- Set Camera's own rule (R1). -/
def setCameraRule (payload : List Byte) (s : State) : Answer :=
  let w := num payload 1 2
  let h := num payload 3 2
  let limit := num payload 5 1
  let d : DarkWindow := ⟨num payload 7 2, num payload 9 2, num payload 11 2, num payload 13 2⟩
  match below? 4 (num payload 0 1), switch? (num payload 6 1) with
  | some c, some tracking =>
    if cameraRangesHold w h limit && (!tracking || darkWindowFits d w h) then
      if (pick s.ports c).state ≠ .off ∨ cameraReferenced s c then refuse s .busy
      else
        accept (s.updPort c fun p =>
          { p with
            width := w, height := h, repairLimit := limit, darkTracking := tracking, window := d })
    else refuse s .badParam
  | _, _ => refuse s .badParam

/-- SET_CAMERA (R1). -/
def execSetCamera (s : State) : Result State := runCommand .setCamera setCameraRule s

/-- Camera Enable with enable on (R2). -/
def enableCamera (c : Fin 4) (s : State) : Answer :=
  match (pick s.ports c).state with
  | .off =>
    if (pick s.ports c).width = 0 then refuse s .badParam
    else accept (s.updPort c fun p => { p with state := .wait, lastSequence := none })
  | .wait => accept s
  | .receive _ => accept s
  | .discard => accept s

/-- A port turned off; a partial frame is abandoned (R2, R20). -/
def disableCamera (c : Fin 4) (s : State) : State :=
  match (pick s.ports c).state with
  | .off => s
  | .wait => s.updPort c fun p => { p with state := .off }
  | .discard => s.updPort c fun p => { p with state := .off }
  | .receive r => (s.stopReceiving r.slot).updPort c fun p => { p with state := .off }

/-- Camera Enable's own rule (R2). -/
def cameraEnableRule (payload : List Byte) (s : State) : Answer :=
  match below? 4 (num payload 0 1), switch? (num payload 1 1) with
  | some c, some true => enableCamera c s
  | some c, some false => accept (disableCamera c s)
  | _, _ => refuse s .badParam

/-- CAMERA_ENABLE (R2). -/
def execCameraEnable (s : State) : Result State := runCommand .cameraEnable cameraEnableRule s

/-- Set Black Level's own rule (R17). -/
def setBlackLevelRule (payload : List Byte) (s : State) : Answer :=
  match below? 4 (num payload 0 1) with
  | some c => accept (s.updPort c fun p => { p with black := BitVec.ofNat 16 (num payload 1 2) })
  | none => refuse s .badParam

/-- SET_BLACK_LEVEL (R17). -/
def execSetBlackLevel (s : State) : Result State := runCommand .setBlackLevel setBlackLevelRule s

end Sys2Proof.Machine
end

