-- ==== Sys2Proof/Machine/Forwarding.lean ====
section
/-! DEFINITION. Recall, pause, flush and the Uplink Arbiter (spec/10). -/

namespace Sys2Proof.Machine

/-! ### Recall (R152, R153) -/

/-- The engine's write slot (R91). -/
def State.writeSlot (s : State) : Option (Fin 52) := s.flight.map Flight.slot

/-- The frame of a slot and generation is gone: the slot is the write slot, or its generation differs (R135,
R152, R155). -/
def State.markStale (s : State) (m : SlotMark) : Bool :=
  s.writeSlot == some m.slot || (pick s.outputSlots m.slot).generation != m.generation

/-- An entry for the record is queued, or the current transmission is of it (R152). -/
def State.forwardPending (s : State) (n : RecordNumber) : Bool :=
  s.forwardQueue.any (fun e => e.record == n) || s.transmission.any fun t => t.entry.record == n

/-- Dispositions of a recall (R152), in listed order. -/
inductive Disposition where
  | queued
  | pending
  | dropped
deriving DecidableEq, Repr

/-- Codes of the dispositions (R171). -/
def Disposition.code : Disposition → Byte
  | .queued => 0
  | .pending => 1
  | .dropped => 2

/-- The entry a recall offers: record, view, slot and generation from the record; priority, width, height and
format from the view's parameters as they stand (R152). -/
def recallEntry (s : State) (r : Record) (m : SlotMark) : ForwardEntry :=
  let p := (pick s.views r.view).params
  ⟨r.number, r.view, p.priority, m, p.job.width, p.job.height, p.job.format⟩

/-- The checks of R152 on a record number, and the offer; the disposition, or the refusing status. -/
def recallRecord (n : RecordNumber) (s : State) : Except Status (State × Disposition) :=
  match s.findRecord n with
  | none => .error .absent
  | some r =>
    if r.status ≠ .complete ∧ r.status ≠ .degraded then .error .viewState
    else
      match r.mark with
      | none => .error .stale
      | some m =>
        if s.markStale m then .error .stale
        else if s.forwardPending n then .ok (s, .pending)
        else
          let e := recallEntry s r m
          .ok (s.offer e, if s.hasRoomFor e then .queued else .dropped)

/-- Recall Frame's own rule (R152). -/
def recallFrameRule (payload : List Byte) (s : State) : Answer :=
  match recallRecord (BitVec.ofNat 32 (num payload 0 4)) s with
  | .error e => refuse s e
  | .ok (t, d) => .reply t .ok [d.code]

/-- RECALL_FRAME (R152). -/
def execRecallFrame (s : State) : Result State := runCommand .recallFrame recallFrameRule s

/-- Recall Latest's own rule (R153): its response also carries the record number. -/
def recallLatestRule (payload : List Byte) (s : State) : Answer :=
  match below? 16 (num payload 0 1) with
  | none => refuse s .badParam
  | some v =>
    match (pick s.views v).lastGood with
    | none => refuse s .absent
    | some n =>
      match recallRecord n s with
      | .error e => refuse s e
      | .ok (t, d) => .reply t .ok (d.code :: leBytes 4 n.toNat)

/-- RECALL_LATEST (R153). -/
def execRecallLatest (s : State) : Result State := runCommand .recallLatest recallLatestRule s

/-! ### Pause, resume and flush (R157, R158) -/

/-- Uplink Pause's own rule (R157). -/
def uplinkPauseRule (_payload : List Byte) (s : State) : Answer := accept { s with paused := true }

/-- UPLINK_PAUSE (R157). -/
def execUplinkPause (s : State) : Result State := runCommand .uplinkPause uplinkPauseRule s

/-- Uplink Resume's own rule (R157). -/
def uplinkResumeRule (_payload : List Byte) (s : State) : Answer := accept { s with paused := false }

/-- UPLINK_RESUME (R157). -/
def execUplinkResume (s : State) : Result State := runCommand .uplinkResume uplinkResumeRule s

/-- A transmission cut short by Uplink Flush; one that Soft Reset has cut short stays so (R158, R159; log 16). -/
def Transmission.flush (t : Transmission) : Transmission :=
  match t.truncation with
  | .whole => { t with truncation := .flushed }
  | .flushed => t
  | .reset => t

/-- Uplink Flush's own rule (R158). -/
def uplinkFlushRule (_payload : List Byte) (s : State) : Answer :=
  .reply { s with forwardQueue := [], transmission := s.transmission.map Transmission.flush } .ok
    (leBytes 1 s.forwardQueue.length ++ [flagByte s.transmission.isSome])

/-- UPLINK_FLUSH (R158). -/
def execUplinkFlush (s : State) : Result State := runCommand .uplinkFlush uplinkFlushRule s

/-! ### The Uplink Arbiter (R154 to R156) -/

/-- The Uplink Port takes a packet (R154, R173). -/
def State.send (s : State) (p : UplinkPacket) : State :=
  { s with uplinkPort := some (uplinkBytes s.nodeAddress p) }

/-- The Uplink Port stays idle (R154). -/
def State.idlePort (s : State) : State := { s with uplinkPort := none }

/-- A relay packet is ready (R168). -/
def relayReady (s : State) : Bool :=
  decide (Config.relayPacketBytes ≤ s.relayBuffer.length) ||
    (!s.relayBuffer.isEmpty && s.relayInterval == .elapsed)

/-- The relay packet taken: the oldest 64 bytes, or all of them if fewer wait (R168). -/
def sendRelay (s : State) : State :=
  State.send { s with relayBuffer := s.relayBuffer.drop Config.relayPacketBytes }
    (.relay (s.relayBuffer.take Config.relayPacketBytes))

/-- The end of the current transmission with its end packet (R156, R158, R159; log 15): hold cleared, the view's
forwarded counter incremented unless Soft Reset cut the transmission short, no transmission current. -/
def sendEnd (t : Transmission) (truncated : Bool) (s : State) : State :=
  let s1 := s.updOutput t.entry.mark.slot fun x => { x with held := false }
  let s2 := if t.truncation = .reset then s1
    else s1.countView t.entry.view fun k => { k with forwarded := satInc k.forwarded }
  State.send { s2 with transmission := none } (.endPacket t.entry.record t.linesSent truncated)

/-- The cells of row `v` of a transmission, in order of u (R156). -/
def lineCells (s : State) (e : ForwardEntry) (v : Nat) : List Cell :=
  (List.range e.width).map fun u => readCell s e.mark.slot (v * e.width + u)

/-- The next line packet of the current transmission (R156). -/
def sendLine (t : Transmission) (s : State) : State :=
  State.send
    { s with transmission := some { t with nextLine := t.nextLine + 1, linesSent := t.linesSent + 1 } }
    (.line t.entry.record t.nextLine (packLine t.entry.format (lineCells s t.entry t.nextLine)))

/-- A forward entry is stale at its turn (R155). -/
def State.entryStale (s : State) (e : ForwardEntry) : Bool :=
  (s.findRecord e.record).isNone || s.markStale e.mark

/-- A stale entry dropped: its view's stale counter increments (R155). -/
def countStale (s : State) (e : ForwardEntry) : State :=
  s.countView e.view fun k => { k with stale := satInc k.stale }

/-- A new transmission started from an entry that has passed the stale check (R155). -/
def beginTransmission (e : ForwardEntry) (s : State) : State :=
  let t := { s.updOutput e.mark.slot fun x => { x with held := true } with
    transmission := some ⟨e, 0, 0, .whole⟩ }
  match s.findRecord e.record with
  | some r => t.send (.record r)
  | none => t.idlePort

/-- A new transmission from the Forward Queue: stale entries are dropped in order until one passes or the queue
is empty (R155). -/
def startTransmission (s : State) : State :=
  let t := (s.forwardQueue.takeWhile s.entryStale).foldl countStale s
  match s.forwardQueue.dropWhile s.entryStale with
  | [] => State.idlePort { t with forwardQueue := [] }
  | e :: rest => beginTransmission e { t with forwardQueue := rest }

/-- The fourth and fifth places of R154: the next packet of the current transmission, or a new one. -/
def sendImage (s : State) : State :=
  match s.transmission with
  | some t =>
    if t.truncation ≠ .whole then sendEnd t true s
    else if s.paused then s.idlePort
    else if t.nextLine < t.entry.height then sendLine t s
    else sendEnd t false s
  | none => if s.paused then s.idlePort else startTransmission s

/-- The arbiter's choice when the Uplink Port is ready (R154). -/
def arbitrate (s : State) : State :=
  match s.responses with
  | r :: rest => State.send { s with responses := rest } (.response r)
  | [] =>
    if relayReady s then sendRelay s
    else
      match s.notices with
      | n :: rest => State.send { s with notices := rest } (.notice n)
      | [] => sendImage s

/-- UPLINK_PORT_READY (R154). -/
def execUplinkPortReady (s : State) : Result State := .next (arbitrate s)

end Sys2Proof.Machine
end

