-- ==== Sys2Proof/Machine/Descriptors.lean ====
section
/-! DEFINITION. The descriptor commands and the protection window commands (spec/02, R23 to R29, R38, R39). -/

namespace Sys2Proof.Machine

/-- A usable descriptor number: 1 to 63 (00_scope.md 5.7); descriptor 0 is the null descriptor. -/
def usableDescriptor (n : Nat) : Option (Fin 64) := if n = 0 then none else below? 64 n

/-- Write Descriptor's own rule (R23). -/
def writeDescriptorRule (payload : List Byte) (s : State) : Answer :=
  let base := num payload 1 4
  let limit := num payload 5 2
  match usableDescriptor (num payload 0 1), granularity? (num payload 7 1), tableType? (num payload 8 1),
      switch? (num payload 9 1) with
  | some d, some g, some t, some present =>
    if 4095 < limit then refuse s .badParam
    else if (pick s.descriptors d).lock ≠ .unlocked then refuse s .descLocked
    else
      let new : Descriptor := ⟨base, limit, g, t, present, false, (pick s.descriptors d).lock⟩
      if base % 64 ≠ 0 ∨ ¬ new.words.inStore then refuse s .descRange
      else accept (s.updDescriptor d fun _ => new)
  | _, _, _, _ => refuse s .badParam

/-- WRITE_DESCRIPTOR (R23). -/
def execWriteDescriptor (s : State) : Result State := runCommand .writeDescriptor writeDescriptorRule s

/-- The data of Read Descriptor, in the order R24 names it. -/
def descriptorData (d : Descriptor) : List Byte :=
  leBytes 4 d.base ++ leBytes 2 d.limit
    ++ [d.granularity.code, d.type.code, flagByte d.present, flagByte d.accessed, d.lock.code]
    ++ leBytes 4 d.span

/-- Read Descriptor's own rule (R24): the accessed flag is cleared after its value is in the response. -/
def readDescriptorRule (payload : List Byte) (s : State) : Answer :=
  match below? 64 (num payload 0 1), switch? (num payload 1 1) with
  | some d, some clear =>
    .reply (if clear then s.updDescriptor d fun x => { x with accessed := false } else s) .ok
      (descriptorData (pick s.descriptors d))
  | _, _ => refuse s .badParam

/-- READ_DESCRIPTOR (R24). -/
def execReadDescriptor (s : State) : Result State := runCommand .readDescriptor readDescriptorRule s

/-- The 64 accessed flags as a set, in the order of the descriptors (R25, R171). That descriptor 0 stands in bit 0 of
the first byte is the model's reading (log 31, DEDUCED). -/
def accessedFlags (ds : Vector Descriptor 64) : Nat :=
  (List.finRange 64).foldl (fun n i => n + if (pick ds i).accessed then 2 ^ i.val else 0) 0

/-- Clear-Accessed Descriptor's own rule (R25). The flag of descriptor d is bit d of the eight bytes read as one number
(log 31, DEDUCED). -/
def clearAccessedRule (payload : List Byte) (s : State) : Answer :=
  let set := num payload 0 8
  .reply
    { s with
      descriptors := tabulate fun i =>
        let x := pick s.descriptors i
        if set.testBit i.val then { x with accessed := false } else x }
    .ok (leBytes 8 (accessedFlags s.descriptors))

/-- CLEAR_ACCESSED_DESCRIPTOR (R25). -/
def execClearAccessedDescriptor (s : State) : Result State :=
  runCommand .clearAccessedDescriptor clearAccessedRule s

/-- A lock command: the lock state it leaves, or none where it is refused DESC_LOCKED; the response carries
the lock state after the command (02 2.3). -/
def lockRule (next : LockState → Option LockState) (payload : List Byte) (s : State) : Answer :=
  match usableDescriptor (num payload 0 1) with
  | none => refuse s .badParam
  | some d =>
    match next (pick s.descriptors d).lock with
    | none => refuse s .descLocked
    | some l => .reply (s.updDescriptor d fun x => { x with lock := l }) .ok [l.code]

/-- Lock Descriptor by lock state (R27). -/
def lockNext : LockState → Option LockState
  | .unlocked => some .locked
  | .locked => some .locked
  | .lockedDown => some .lockedDown

/-- Unlock Descriptor by lock state (R28). -/
def unlockNext : LockState → Option LockState
  | .unlocked => some .unlocked
  | .locked => some .unlocked
  | .lockedDown => none

/-- Lock Down Descriptor by lock state (R29). -/
def lockDownNext : LockState → Option LockState
  | .unlocked => some .lockedDown
  | .locked => some .lockedDown
  | .lockedDown => some .lockedDown

/-- LOCK_DESCRIPTOR (R27). -/
def execLockDescriptor (s : State) : Result State := runCommand .lockDescriptor (lockRule lockNext) s

/-- UNLOCK_DESCRIPTOR (R28). -/
def execUnlockDescriptor (s : State) : Result State := runCommand .unlockDescriptor (lockRule unlockNext) s

/-- LOCK_DOWN_DESCRIPTOR (R29). -/
def execLockDownDescriptor (s : State) : Result State :=
  runCommand .lockDownDescriptor (lockRule lockDownNext) s

/-- Set Protection Window's own rule (R38). -/
def setWindowRule (payload : List Byte) (s : State) : Answer :=
  match below? 8 (num payload 0 1), side? (num payload 1 1), switch? (num payload 2 1) with
  | some size, some side, some complement =>
    let new : ProtectionWindow := ⟨size, side, complement, s.window.locked⟩
    if s.window.locked then refuse s .protectedWords
    else if s.reservation.any new.touches then refuse s .busy
    else accept { s with window := new }
  | _, _, _ => refuse s .badParam

/-- SET_PROTECTION_WINDOW (R38). -/
def execSetProtectionWindow (s : State) : Result State := runCommand .setProtectionWindow setWindowRule s

/-- Protection Lock's own rule (R39). -/
def protectionLockRule (_payload : List Byte) (s : State) : Answer :=
  accept { s with window := { s.window with locked := true } }

/-- PROTECTION_LOCK (R39). -/
def execProtectionLock (s : State) : Result State := runCommand .protectionLock protectionLockRule s

end Sys2Proof.Machine
end

