-- ==== Sys2Proof/Machine/Loading.lean ====
section
/-! DEFINITION. The Load Unit (spec/03): patch loads, streams and Read Table. -/

namespace Sys2Proof.Machine

/-- A descriptor a load or stream may name: 1 to 63, not of type NONE (R45, R51). -/
def loadableDescriptor (s : State) (n : Nat) : Option (Fin 64) :=
  (usableDescriptor n).filter fun d => (pick s.descriptors d).type != .untyped

/-- Load Open's own rule (R45). -/
def loadOpenRule (payload : List Byte) (s : State) : Answer :=
  let offset := num payload 1 4
  let count := num payload 5 2
  match loadableDescriptor s (num payload 0 1) with
  | none => refuse s .badParam
  | some d =>
    let x := pick s.descriptors d
    if count < 1 ∨ 256 < count then refuse s .badParam
    else if x.lock ≠ .unlocked then refuse s .descLocked
    else if x.span < offset + count then refuse s .limit
    else
      .reply { s with loadUnit := .loading d ⟨x.base + offset, count⟩ [] } .ok
        (leBytes 4 (x.base + offset) ++ leBytes 2 count)

/-- LOAD_OPEN (R45). -/
def execLoadOpen (s : State) : Result State := runCommand .loadOpen loadOpenRule s

/-- A data or commit command with no load or stream of its kind open: SEQUENCE, and LOAD_SEQUENCE is set
(R46, R47, R52). -/
def nothingOpen (s : State) : Answer := refuse (s.setSticky .loadSequence) .sequence

/-- Load Data's own rule (R46). -/
def loadDataRule (payload : List Byte) (s : State) : Answer :=
  match s.loadUnit with
  | .idle => nothingOpen s
  | .streaming _ _ _ => nothingOpen s
  | .loading d target buffer =>
    match payloadWords payload with
    | none => refuse s .badLength
    | some [] => refuse s .badLength
    | some (w :: ws) =>
      let held := buffer ++ w :: ws
      if target.count < held.length then refuse s.cancelLoad .sequence
      else .reply { s with loadUnit := .loading d target held } .ok (leBytes 2 held.length)

/-- LOAD_DATA (R46). -/
def execLoadData (s : State) : Result State := runCommand .loadData loadDataRule s

/-- Load Commit's own rule (R47). -/
def loadCommitRule (_payload : List Byte) (s : State) : Answer :=
  match s.loadUnit with
  | .idle => nothingOpen s
  | .streaming _ _ _ => nothingOpen s
  | .loading _ target buffer =>
    if buffer.length < target.count then refuse s.cancelLoad .incomplete
    else if s.window.touches target then
      refuse { s.setSticky .loadRefused with loadUnit := .idle } .protectedWords
    else if s.pinned target then refuse s .regionPinned
    else if ¬ target.inStore then .stop .outsideTableStore
    else
      .reply { s with tableStore := storeWriteAll s.tableStore target.first buffer, loadUnit := .idle } .ok
        (leBytes 4 target.first ++ leBytes 2 target.count)

/-- LOAD_COMMIT (R47). -/
def execLoadCommit (s : State) : Result State := runCommand .loadCommit loadCommitRule s

/-- Load Cancel's own rule (R49). -/
def loadCancelRule (_payload : List Byte) (s : State) : Answer :=
  match s.loadUnit with
  | .loading _ _ _ => accept { s with loadUnit := .idle }
  | .idle => accept s
  | .streaming _ _ _ => accept s

/-- LOAD_CANCEL (R49). -/
def execLoadCancel (s : State) : Result State := runCommand .loadCancel loadCancelRule s

/-- Stream Open's own rule (R51). -/
def streamOpenRule (payload : List Byte) (s : State) : Answer :=
  let offset := num payload 1 4
  let total := num payload 5 4
  match loadableDescriptor s (num payload 0 1) with
  | none => refuse s .badParam
  | some d =>
    let x := pick s.descriptors d
    let target : Span := ⟨x.base + offset, total⟩
    if offset % Config.blockWords ≠ 0 ∨ total < 1 ∨ Config.storeWords < total then refuse s .badParam
    else if x.lock ≠ .unlocked then refuse s .descLocked
    else if x.span < offset + total then refuse s .limit
    else if s.window.touches target then refuse (s.setSticky .loadRefused) .protectedWords
    else if s.pinned target then refuse s .regionPinned
    else
      .reply { s with loadUnit := .streaming d target 0 } .ok
        (leBytes 4 target.first ++ leBytes 4 total
          ++ leBytes 2 ((total + Config.blockWords - 1) / Config.blockWords))

/-- STREAM_OPEN (R51). -/
def execStreamOpen (s : State) : Result State := runCommand .streamOpen streamOpenRule s

/-- The words the next Stream Data must carry, with `left` words not yet written (R52). -/
def expectedBlock (left : Nat) : Nat := min Config.blockWords left

/-- Stream Data's own rule (R52, R53). -/
def streamDataRule (payload : List Byte) (s : State) : Answer :=
  match s.loadUnit with
  | .idle => nothingOpen s
  | .loading _ _ _ => nothingOpen s
  | .streaming d target streamed =>
    let left := target.count - streamed
    match payloadWords payload with
    | none => refuse s .badLength
    | some ws =>
      if ws.length ≠ expectedBlock left then refuse s .badLength
      else if ¬ target.inStore then .stop .outsideTableStore
      else
        let store := storeWriteAll s.tableStore (target.first + streamed) ws
        if left ≤ Config.blockWords then
          .reply { s with tableStore := store, loadUnit := .idle } .done (leBytes 4 target.count)
        else
          .reply { s with tableStore := store, loadUnit := .streaming d target (streamed + ws.length) } .ok
            (leBytes 4 (streamed + ws.length))

/-- STREAM_DATA (R52, R53). -/
def execStreamData (s : State) : Result State := runCommand .streamData streamDataRule s

/-- Stream Cancel's own rule (R54); with no stream open the response carries no data (log 13). -/
def streamCancelRule (_payload : List Byte) (s : State) : Answer :=
  match s.loadUnit with
  | .streaming _ _ streamed => .reply { s with loadUnit := .idle } .ok (leBytes 4 streamed)
  | .idle => accept s
  | .loading _ _ _ => accept s

/-- STREAM_CANCEL (R54). -/
def execStreamCancel (s : State) : Result State := runCommand .streamCancel streamCancelRule s

/-- Read Table's own rule (R56). -/
def readTableRule (payload : List Byte) (s : State) : Answer :=
  let offset := num payload 1 4
  let count := num payload 5 1
  match usableDescriptor (num payload 0 1) with
  | none => refuse s .badParam
  | some d =>
    let x := pick s.descriptors d
    if count < 1 ∨ 64 < count then refuse s .badParam
    else if x.span < offset + count then refuse s .limit
    else if ¬ Span.inStore ⟨x.base + offset, count⟩ then .stop .outsideTableStore
    else
      .reply s .ok ((storeReadAll s.tableStore (x.base + offset) count).flatMap fun w => leBytes 4 w.toNat)

/-- READ_TABLE (R56). -/
def execReadTable (s : State) : Result State := runCommand .readTable readTableRule s

end Sys2Proof.Machine
end

