-- ==== Sys2Proof/Machine/Stages.lean ====
section
/-! DEFINITION. The five stages of a job (spec/06 to spec/08): locate, sample, level, tone and tally, in exact
integer arithmetic. -/

namespace Sys2Proof.Machine

/-! ### Locate (06) -/

/-- Mesh node N(i, j): its source x and y, signed, units of 1/16 pixel (R101). -/
def meshNode (store : List (Nat × Word)) (m : Mesh) (i j : Nat) : Int × Int :=
  let w := storeRead store (m.base + 1 + j * m.mw + i)
  ((w.extractLsb' 0 16).toInt, (w.extractLsb' 16 16).toInt)

/-- The rounded bilinear mean of four node values at position (a, b) of a cell of s pixels (R102). -/
def bilinear (s a b n00 n10 n01 n11 : Int) : Int :=
  ((n00 * (s - a) + n10 * a) * (s - b) + (n01 * (s - a) + n11 * a) * b + s * s / 2) / (s * s)

/-- The interpolated source point of output pixel (u, v), units of 1/16 pixel (R100, R102). -/
def meshPoint (store : List (Nat × Word)) (m : Mesh) (u v : Nat) : Int × Int :=
  let s := 2 ^ m.k
  let i := u / s
  let a := u % s
  let j := v / s
  let b := v % s
  let n00 := meshNode store m i j
  let n10 := meshNode store m (i + 1) j
  let n01 := meshNode store m i (j + 1)
  let n11 := meshNode store m (i + 1) (j + 1)
  (bilinear s a b n00.1 n10.1 n01.1 n11.1, bilinear s a b n00.2 n10.2 n01.2 n11.2)

/-- The located point of output pixel (u, v): with axis tracking on, the axis offset is added (R103, R104). -/
def locate (store : List (Nat × Word)) (f : Flight) (u v : Nat) : Int × Int :=
  let p := meshPoint store f.mesh u v
  if f.params.axisTracking then (p.1 + f.job.header.axisX.toInt, p.2 + f.job.header.axisY.toInt) else p

/-! ### Sample (06) -/

/-- The in-field test, both bounds inclusive (R105). -/
def inField (width height : Nat) (p : Int × Int) : Bool :=
  decide (0 ≤ p.1 ∧ p.1 ≤ ((width : Int) - 1) * 16 ∧ 0 ≤ p.2 ∧ p.2 ≤ ((height : Int) - 1) * 16)

/-- The sample r256 at the in-field point (x, y) of a frame of `width` by `height`, units of 1/256 code, reading
source pixels by `pixel` (R108 to R110); a neighbour past the edge is taken at the edge (R109). -/
def sample (pixel : Nat → Nat → Nat) (width height x y : Nat) : Nat :=
  let px := x / 16
  let fx := x % 16
  let py := y / 16
  let fy := y % 16
  let qx := min (px + 1) (width - 1)
  let qy := min (py + 1) (height - 1)
  pixel px py * (16 - fx) * (16 - fy) + pixel qx py * fx * (16 - fy)
    + pixel px qy * (16 - fx) * fy + pixel qx qy * fx * fy

/-- The code of an out-of-field pixel (R106). -/
def fillCode (p : JobParams) : Nat :=
  match p.format with
  | .code10 => p.fill
  | .code8 => p.fill / 4

/-! ### Level (07) -/

/-- The black-subtracted sample d (R116). -/
def blackSubtract (on : Bool) (black : Half) (r256 : Nat) : Nat :=
  if on then r256 - 16 * black.toNat else r256

/-- Cell index and position on one axis of a gain surface: ci and α, or cj and β (R117). -/
def surfaceCell (nodes cw x : Nat) : Nat × Nat :=
  let q := 2 ^ (cw + 4)
  let g := min x ((nodes - 1) * q)
  let c := min (g / q) (nodes - 2)
  (c, (g - c * q) * 256 / q)

/-- The gain of node (i, j) of a surface (R118). -/
def gainNode (store : List (Nat × Word)) (t : Surface) (i j : Nat) : Nat :=
  let m := j * t.gw + i
  halfOf (storeRead store (t.base + 1 + m / 2)) m

/-- The gain of a surface at an in-field point (R119). -/
def surfaceGain (store : List (Nat × Word)) (t : Surface) (x y : Nat) : Nat :=
  let cx := surfaceCell t.gw t.cw x
  let cy := surfaceCell t.gh t.cw y
  let g00 := gainNode store t cx.1 cy.1
  let g10 := gainNode store t (cx.1 + 1) cy.1
  let g01 := gainNode store t cx.1 (cy.1 + 1)
  let g11 := gainNode store t (cx.1 + 1) (cy.1 + 1)
  ((g00 * (256 - cx.2) + g10 * cx.2) * (256 - cy.2) + (g01 * (256 - cx.2) + g11 * cx.2) * cy.2 + 32768)
    / 65536

/-- The gain g applied at an in-field point (R120). -/
def gainAt (store : List (Nat × Word)) (mode : GainMode) (x y : Nat) : Nat :=
  match mode with
  | .unity => 4096
  | .single t => surfaceGain store t x y
  | .blend lower upper w =>
    (surfaceGain store lower x y * (256 - w) + surfaceGain store upper x y * w + 128) / 256

/-- The corrected value before the saturation test (R121). -/
def correctedValue (d g e : Nat) : Nat := (d * g * e + 2 ^ 31) / 2 ^ 32

/-- The exposure scale e and whether EXPOSURE_CLAMPED is set (R115). -/
def exposureScale (eref ef : Nat) : Nat × Bool :=
  if eref = 0 then (4096, false)
  else if ef = 0 then (4096, true)
  else
    let e := (2 * eref * 4096 + ef) / (2 * ef)
    if e < 1024 then (1024, true) else if 65535 < e then (65535, true) else (e, false)

/-- The blend weight w of the upper surface (R114). -/
def blendWeight (level lower upper : Nat) : Nat := (level - lower) * 256 / (upper - lower)

/-! ### Tone (08) -/

/-- Node T[n] of the curve at `base`, a value above 1023 taken as 1023 (R125). -/
def toneNode (store : List (Nat × Word)) (base n : Nat) : Nat :=
  min 1023 (halfOf (storeRead store (base + 1 + n / 2)) n)

/-- The 10-bit output code of a corrected value (R126, R127). -/
def toneMap (store : List (Nat × Word)) (mode : ToneMode) (c12 : Nat) : Nat :=
  match mode with
  | .linear => c12 / 4
  | .curve base =>
    let t := c12 / 16
    let f := c12 % 16
    (toneNode store base t * (16 - f) + toneNode store base (t + 1) * f + 8) / 16

/-- The output code in the output format (R128). -/
def formatCode (fmt : Format) (out10 : Nat) : Nat :=
  match fmt with
  | .code10 => out10
  | .code8 => out10 / 4

/-! ### One output pixel (R92) and its tally -/

/-- What the stages make of one output pixel. -/
inductive PixelResult where
  /-- Out of field: the fill code (R106). -/
  | filled (code : Nat)
  /-- In field: the output code and the saturated mark (R122, R128). -/
  | conditioned (code : Nat) (saturated : Bool)
deriving DecidableEq, Repr

/-- The output code of a pixel. -/
def PixelResult.code : PixelResult → Nat
  | .filled c => c
  | .conditioned c _ => c

/-- Locate, sample, level and tone for output pixel (u, v) of the job in flight (R92). -/
def conditionPixel (store : List (Nat × Word)) (pixel : Nat → Nat → Nat) (f : Flight) (u v : Nat) :
    PixelResult :=
  let p := locate store f u v
  if inField f.width f.height p then
    let x := p.1.toNat
    let y := p.2.toNat
    let d := blackSubtract f.params.blackSubtraction f.black (sample pixel f.width f.height x y)
    let c := correctedValue d (gainAt store f.gainMode x y) f.exposureScale
    .conditioned (formatCode f.params.format (toneMap store f.toneMode (min 4095 c))) (decide (4095 < c))
  else .filled (fillCode f.params)

/-- The histogram bin of an output code (R131). -/
def histogramBin (fmt : Format) (code : Nat) : Nat :=
  match fmt with
  | .code10 => code / 64
  | .code8 => code / 16

/-- One more pixel in the bin of a code; codes of either format fall in bins 0 to 15 (R131). -/
def countBin (fmt : Format) (code : Nat) (bins : Vector Nat 16) : Vector Nat 16 :=
  match below? 16 (histogramBin fmt code) with
  | some i => upd bins i (· + 1)
  | none => bins

/-- The tallies after one output pixel (R107, R130). -/
def tally (fmt : Format) (r : PixelResult) (t : Tallies) : Tallies :=
  match r with
  | .filled _ => { t with outOfField := t.outOfField + 1 }
  | .conditioned code saturated =>
    { t with
      codeSum := t.codeSum + code
      inField := t.inField + 1
      saturated := t.saturated + if saturated then 1 else 0
      bins := t.bins.map (countBin fmt code) }

/-- The record flag a pixel may add: OUT_OF_FIELD (R107) or SATURATED (R122). -/
def pixelFlags : PixelResult → List RecordFlag
  | .filled _ => [.outOfField]
  | .conditioned _ true => [.saturated]
  | .conditioned _ false => []

/-- The mean of the tallies, rounded half up; 0 with no in-field pixel (R132). -/
def meanCode (t : Tallies) : Nat :=
  if t.inField = 0 then 0 else (2 * t.codeSum + t.inField) / (2 * t.inField)

/-- The tallies a job begins with (R129). -/
def freshTallies (histogram : Bool) : Tallies :=
  ⟨0, 0, 0, 0, if histogram then some (Vector.replicate 16 0) else none⟩

end Sys2Proof.Machine
end

