-- ==== Sys2Proof/Machine/Engine.lean ====
section
/-! DEFINITION. Conditioning jobs (spec/05) with their records and buffers (spec/09): job start, output pixels,
job end, Engine Abort, and forwarding selection at a job's end (spec/10 10.1). -/

namespace Sys2Proof.Machine

/-! ### Records (R83, R140, R141) -/

/-- A record as a job's start creates it (R83). -/
def newRecord (s : State) (j : Job) : Record where
  number := s.nextRecord
  view := j.view
  camera := j.camera
  sequence := j.header.sequence
  odometer := j.header.odometer
  marker := j.header.marker
  level := j.header.level
  exposure := j.header.exposure
  repairs := j.repairs
  tagStart := s.timeTag
  status := .inProgress
  flags := if 0 < j.repairs then joinFlag 0 .sourceRepaired else 0
  tagFinal := none
  mark := none
  statistics := none
  histogram := none

/-- Creation of a record (R140): it takes the next number; at 1024 records the oldest is removed, and a record
in place 0 that removes one raises RECORD_ROLLOVER. -/
def createRecord (j : Job) (s : State) : State :=
  let full := decide (Config.recordPlaces ≤ s.records.length)
  let kept := if full then s.records.drop 1 else s.records
  let t := { s with records := kept ++ [newRecord s j], nextRecord := s.nextRecord + 1 }
  if full && s.nextRecord.toNat % Config.recordPlaces == 0 then t.raise (.recordRollover s.nextRecord) else t

/-- A record leaves IN_PROGRESS: status and time tag at end (R141). -/
def State.finalise (s : State) (n : RecordNumber) (status : RecordStatus) : State :=
  s.updRecord n fun r => { r with status := status, tagFinal := some s.timeTag }

/-! ### Starting a job (05 5.3) -/

/-- The output slot index of a slot number (R134). -/
def outputIndex (n : Nat) : Option (Fin 52) := if 12 ≤ n then below? 52 (n - 12) else none

/-- The slot the view's next job writes (R84); none without a buffering scheme or outside slots 12 to 63. -/
def chosenSlot (w : View) : Option (Fin 52) :=
  match w.params.job.scheme with
  | .unbuffered => none
  | .single => outputIndex w.params.job.slotBase
  | .double => outputIndex (w.params.job.slotBase + w.doubleIndex.val)
  | .ring => outputIndex (w.params.job.slotBase + w.ringPointer)

/-- The job is skipped for a held slot (R84). -/
def skipJob (j : Job) (n : RecordNumber) (s : State) : State :=
  let t := (s.updRecord n fun r => { r with flags := joinFlag r.flags .slotHeld }).finalise n .skipped
  ((t.countView j.view fun k => { k with slotHeldSkips := satInc k.slotHeldSkips }).releaseSource
    j.slot).settle j.view

/-- The gain-set entries selected for level `level` among the used ones in ascending level (R86). -/
def selectGains (level : Fin 8) : List GainEntry → List GainEntry
  | [] => []
  | [a] => [a]
  | a :: b :: rest =>
    if level ≤ a.level then [a]
    else if level < b.level then [a, b]
    else selectGains level (b :: rest)

/-- The role of a table type. -/
def TableRole.type : TableRole → TableType
  | .gain => .gain
  | .mesh => .mesh
  | .tone => .tone

/-- A mesh covers an output of `ow` by `oh` (R35). -/
def meshCovers (mw mh k ow oh : Nat) : Bool :=
  decide ((ow - 1) / 2 ^ k ≤ mw - 2 ∧ (oh - 1) / 2 ^ k ≤ mh - 2)

/-- Check 7 of R34: for a mesh, it covers the view's output. -/
def headerCovers (ow oh : Nat) : TableHeader → Bool
  | .mesh mw mh k => meshCovers mw mh k ow oh
  | .gain _ _ _ => true
  | .tone _ => true

/-- Validation of a latched descriptor in a role, for an output of `ow` by `oh` (R34, R87). -/
def validate (s : State) (role : TableRole) (ow oh : Nat) (d : Descriptor) : TableOutcome :=
  if !d.present then .failed .absent
  else if s.reservation.any d.words.overlaps then .failed .loading
  else if d.type ≠ role.type then .failed .format
  else
    match parseHeader role (storeRead s.tableStore d.base) with
    | none => .failed .format
    | some h => if h.size ≤ d.span ∧ headerCovers ow oh h then .usable h else .failed .format

/-- A descriptor latched and validated (R86, R87). -/
def latchTable (s : State) (role : TableRole) (p : JobParams) (n : Fin 64) : TableLatch :=
  ⟨n, pick s.descriptors n, validate s role p.width p.height (pick s.descriptors n)⟩

/-- The flag a latched table's failure puts in the record (R87). -/
def outcomeFlags (role : TableRole) : TableOutcome → List RecordFlag
  | .usable _ => []
  | .failed x => [failureFlag role x]

/-- The pin of a latched table: its span when it is usable (R40, R87). -/
def pinOf (t : TableLatch) : List Span :=
  match t.outcome with
  | .usable _ => [t.descriptor.words]
  | .failed _ => []

/-- A usable gain surface (R87). -/
def surfaceOf (t : TableLatch) : Option Surface :=
  match t.outcome with
  | .usable (.gain gw gh cw) => some ⟨t.descriptor.base, gw, gh, cw⟩
  | _ => none

/-- A usable mesh (R87). -/
def meshOf (t : TableLatch) : Option Mesh :=
  match t.outcome with
  | .usable (.mesh mw mh k) => some ⟨t.descriptor.base, mw, mh, k⟩
  | _ => none

/-- A gain surface covers a source frame of `w` by `h` (R36). -/
def surfaceCovers (t : Surface) (w h : Nat) : Bool :=
  decide (w - 1 ≤ (t.gw - 1) * 2 ^ t.cw ∧ h - 1 ≤ (t.gh - 1) * 2 ^ t.cw)

/-- GAIN_COVERAGE, once however many usable surfaces fall short (R36, R87). -/
def coverageFlags (gains : List GainLatch) (w h : Nat) : List RecordFlag :=
  if (gains.filterMap fun g => surfaceOf g.table).all fun t => surfaceCovers t w h then []
  else [.gainCoverage]

/-- The gain mode of a job from its latched surfaces and the frame's level (R88, R113, R114). -/
def gainModeOf (level : Fin 8) : List GainLatch → GainMode
  | [a] =>
    match surfaceOf a.table with
    | some t => .single t
    | none => .unity
  | [a, b] =>
    match surfaceOf a.table, surfaceOf b.table with
    | some t, some u => .blend t u (blendWeight level.val a.level.val b.level.val)
    | some t, none => .single t
    | none, some u => .single u
    | none, none => .unity
  | _ => .unity

/-- The tone mode of a job from its latched tone table (R88, R124). -/
def toneModeOf : Option TableLatch → ToneMode
  | none => .linear
  | some t =>
    match t.outcome with
    | .usable _ => .curve t.descriptor.base
    | .failed _ => .linear

/-- Everything a job latches and validates at its start (R85 to R87). -/
structure Latched where
  gains : List GainLatch
  mesh : Option TableLatch
  tone : Option TableLatch
deriving DecidableEq, Repr

/-- The descriptors a job selects, latched and validated (R86, R87). -/
def latchTables (s : State) (p : JobParams) (level : Fin 8) : Latched where
  gains := (selectGains level (usedEntries p.gainSet)).map fun e =>
    ⟨e.level, latchTable s .gain p e.selector⟩
  mesh := if p.meshSelector = 0 then none else some (latchTable s .mesh p p.meshSelector)
  tone := if p.toneSelector = 0 then none else some (latchTable s .tone p p.toneSelector)

/-- The descriptors latched, by number (R86). -/
def Latched.selectors (l : Latched) : List (Fin 64) :=
  l.gains.map (fun g => g.table.selector) ++ l.mesh.toList.map TableLatch.selector
    ++ l.tone.toList.map TableLatch.selector

/-- The mesh's outcome; a mesh selector of 0 is MESH_ABSENT without a descriptor (R87). -/
def Latched.meshFailure (l : Latched) : Option TableFailure :=
  match l.mesh with
  | none => some .absent
  | some t =>
    match t.outcome with
    | .usable _ => none
    | .failed x => some x

/-- The flags validation and the coverage test put in the record (R87). -/
def Latched.flags (l : Latched) (w h : Nat) : List RecordFlag :=
  l.gains.flatMap (fun g => outcomeFlags .gain g.table.outcome)
    ++ (l.meshFailure.toList.map (failureFlag .mesh))
    ++ l.tone.toList.flatMap (fun t => outcomeFlags .tone t.outcome)
    ++ coverageFlags l.gains w h

/-- The pins of a job's usable tables: gain, mesh and tone (R40, R87). -/
def Latched.pins (l : Latched) : List Span :=
  l.gains.flatMap (fun g => pinOf g.table) ++ l.mesh.toList.flatMap pinOf ++ l.tone.toList.flatMap pinOf

/-- The accessed flags of the latched descriptors set (R26, R86). -/
def State.markAccessed (s : State) (ds : List (Fin 64)) : State :=
  ds.foldl (fun t d => t.updDescriptor d fun x => { x with accessed := true }) s

/-- The job faults for its mesh (R89); the pins it added are released, so none is left of them. -/
def faultJob (j : Job) (n : RecordNumber) (x : TableFailure) (s : State) : State :=
  let t := (((s.finalise n .fault).countView j.view fun k =>
    { k with faulted := satInc k.faulted }).setSticky .viewFault).raise (.viewFault j.view n x)
  (t.releaseSource j.slot).settle j.view

/-- The seventh step and the job values: the generation advances, the slot and generation go into the record,
the slot becomes the write slot, and the stages begin (R90, R112, R115, R124, R129). -/
def beginStages (j : Job) (n : RecordNumber) (slot : Fin 52) (l : Latched) (t : TableLatch) (m : Mesh)
    (s : State) : State :=
  let p := (pick s.views j.view).params.job
  let port := pick s.ports j.camera
  let scale := exposureScale p.referenceExposure.toNat j.header.exposure.toNat
  let s1 := s.updOutput slot fun x => { x with generation := x.generation + 1 }
  let s2 := s1.updRecord n fun r =>
    { r with
      mark := some ⟨slot, (pick s1.outputSlots slot).generation⟩
      flags := if scale.2 then joinFlag r.flags .exposureClamped else r.flags }
  { s2 with
    pins := s.pins ++ l.pins
    flight := some
      { job := j
        record := n
        slot := slot
        params := p
        black := port.black
        width := port.width
        height := port.height
        gains := l.gains
        meshTable := t
        toneTable := l.tone
        mesh := m
        gainMode := gainModeOf j.header.level l.gains
        exposureScale := scale.1
        toneMode := toneModeOf l.tone
        tallies := freshTallies p.histogram
        produced := 0 } }

/-- Steps 3 to 7 of the start, the slot not being held (R85 to R90). -/
def latchJob (j : Job) (n : RecordNumber) (slot : Fin 52) (s : State) : State :=
  let port := pick s.ports j.camera
  let l := latchTables s (pick s.views j.view).params.job j.header.level
  let t := (s.markAccessed l.selectors).updRecord n fun r =>
    { r with flags := joinFlags r.flags (l.flags port.width port.height) }
  match l.mesh with
  | none => faultJob j n .absent t
  | some x =>
    match meshOf x with
    | some m => beginStages j n slot l x m t
    | none => faultJob j n (l.meshFailure.getD .format) t

/-- The start sequence of the head job, already taken from the queue (05 5.3). -/
def startJob (j : Job) (s : State) : Except Fault State :=
  let n := s.nextRecord
  let t := createRecord j s
  match chosenSlot (pick t.views j.view) with
  | none => .error .noOutputSlot
  | some slot =>
    if (pick t.outputSlots slot).held then .ok (skipJob j n t) else .ok (latchJob j n slot t)

/-- The engine starts the head job when it is IDLE and the queue is not empty (R82). -/
def startHead (s : State) : Except Fault State :=
  match s.flight, s.jobs with
  | none, j :: rest => startJob j { s with jobs := rest }
  | none, [] => .ok s
  | some _, _ => .ok s

/-- An engine event's outcome as a step's. -/
def engineOutcome : Except Fault State → Result State
  | .ok s => .next s
  | .error f => .fault f

/-- JOB_START: the engine, IDLE with a non-empty queue, starts the head job (R82); otherwise nothing happens
(log 4). -/
def execJobStart (s : State) : Result State := engineOutcome (startHead s)

/-! ### Output pixels (R92) -/

/-- The output pixels of the job in flight (R92). -/
def Flight.pixels (f : Flight) : Nat := f.params.width * f.params.height

/-- The next output pixel of the job in flight `f`, in raster order (R92, R128). -/
def producePixel (f : Flight) (s : State) : State :=
  let u := f.produced % f.params.width
  let v := f.produced / f.params.width
  let r := conditionPixel s.tableStore (fun x y => (readPixel s f.job.slot x y).toNat) f u v
  let s1 := s.updOutput f.slot fun x =>
    { x with cells := putAt f.produced (BitVec.ofNat 16 r.code) x.cells }
  let s2 := s1.updRecord f.record fun x => { x with flags := joinFlags x.flags (pixelFlags r) }
  { s2 with
    flight := some
      { f with tallies := tally f.params.format r f.tallies, produced := f.produced + 1 } }

/-- OUTPUT_PIXEL: the next output pixel of the job in flight, while one is left (R92; log 4). -/
def execOutputPixel (s : State) : Result State :=
  match s.flight with
  | none => .next s
  | some f => if f.produced < f.pixels then .next (producePixel f s) else .next s

/-! ### Ending a job (R94) -/

/-- The view's buffer after an advance, and whether a ring has wrapped (R137, R138). -/
def View.advance (w : View) : View × Bool :=
  match w.params.job.scheme with
  | .double => ({ w with doubleIndex := 1 - w.doubleIndex }, false)
  | .ring =>
    let p := (w.ringPointer + 1) % w.params.job.ringLength
    ({ w with ringPointer := p }, p == 0)
  | .single => (w, false)
  | .unbuffered => (w, false)

/-- Step 3 of a job's end: the buffer advances for COMPLETE, and for DEGRADED with advance-on-degraded on; a
wrapped ring raises RING_WRAP (R137, R138). -/
def advanceBuffer (v : Fin 16) (n : RecordNumber) (degraded : Bool) (s : State) : State :=
  let w := pick s.views v
  if degraded && !w.params.advanceOnDegraded then s
  else
    let a := w.advance
    let t := s.updView v fun _ => a.1
    if a.2 then t.raise (.ringWrap v w.params.job.ringLength n) else t

/-- Distance of two signed odometers, taken exactly (R148). -/
def odometerDistance (a b : Word) : Nat := (a.toInt - b.toInt).natAbs

/-- Forwarding selection: whether the record is selected, and the view with its forwarding state updated
(R147, R148, R149). -/
def View.select (w : View) (odometer : Word) (marker : Bool) : Bool × View :=
  match w.params.forwardClass with
  | .off => (false, w)
  | .every => (true, w)
  | .decimate n =>
    if w.decimation + 1 = n then (true, { w with decimation := 0 })
    else (false, { w with decimation := w.decimation + 1 })
  | .spacing d =>
    let chosen := match w.lastOdometer with
      | none => true
      | some m => decide (d ≤ odometerDistance odometer m)
    if chosen then (true, { w with lastOdometer := some odometer }) else (false, w)
  | .marker k =>
    let b := if marker then k else w.burst
    if 0 < b then (true, { w with burst := b - 1 }) else (false, { w with burst := b })

/-- Step 4 of a job's end: selection, and the offer of an entry when the record is selected (R146). -/
def selectRecord (f : Flight) (mark : SlotMark) (s : State) : State :=
  let r := (pick s.views f.job.view).select f.job.header.odometer f.job.header.marker
  let t := s.updView f.job.view fun _ => r.2
  if r.1 then
    t.offer ⟨f.record, f.job.view, r.2.params.priority, mark, f.params.width, f.params.height,
      f.params.format⟩
  else t

/-- Some degrading flag stands in the record of the job in flight (R93). -/
def jobDegraded (f : Flight) (s : State) : Bool :=
  match s.findRecord f.record with
  | some r => isDegraded r.flags
  | none => false

/-- Step 1 of a job's end: the record finalised with its statistics and histogram parts, and the view's
completed or degraded counter (R94, R132). -/
def completeRecord (f : Flight) (degraded : Bool) (s : State) : State :=
  let t := (s.updRecord f.record fun r =>
    { r with
      statistics := some ⟨meanCode f.tallies, f.tallies.saturated, f.tallies.outOfField⟩
      histogram := f.tallies.bins }).finalise f.record (if degraded then .degraded else .complete)
  t.countView f.job.view fun k =>
    if degraded then { k with degraded := satInc k.degraded } else { k with completed := satInc k.completed }

/-- The end of the job in flight `f`, steps 1 to 6 of R94; the engine is then IDLE. -/
def endJob (f : Flight) (s : State) : State :=
  let degraded := jobDegraded f s
  let s1 := completeRecord f degraded s
  let s2 := { s1.releaseSource f.job.slot with pins := [], flight := none }
  let s3 := advanceBuffer f.job.view f.record degraded s2
  let s4 := selectRecord f ⟨f.slot, (pick s3.outputSlots f.slot).generation⟩ s3
  let s5 := s4.updView f.job.view fun w => { w with lastGood := some f.record }
  s5.settle f.job.view

/-- JOB_END: after the last pixel the job ends, and the engine starts the queue's head job if there is one
(R94; log 3). Before the last pixel, or with no job, nothing happens (log 4). -/
def execJobEnd (s : State) : Result State :=
  match s.flight with
  | none => .next s
  | some f =>
    if f.produced < f.pixels then .next s else engineOutcome (startHead (endJob f s))

/-! ### Engine Abort (R95) -/

/-- The job in flight stopped where it stands (R95). -/
def abortJob (f : Flight) (s : State) : State :=
  let t := (s.finalise f.record .aborted).countView f.job.view fun k =>
    { k with aborted := satInc k.aborted }
  { t.releaseSource f.job.slot with pins := [], flight := none }

/-- The job in flight, if any, stopped. -/
def abortFlight (s : State) : State :=
  match s.flight with
  | some f => abortJob f s
  | none => s

/-- The views that lose a job by an abort: the aborted job's, and with flush the queued jobs' (R95). -/
def abortedViews (flush : Bool) (s : State) : List (Fin 16) :=
  s.flight.toList.map (fun f => f.job.view) ++ if flush then s.jobs.map (fun j => j.view) else []

/-- Engine Abort's effect before the engine's next start: the abort, the removals, and R71 for the views. -/
def abortEngine (flush : Bool) (s : State) : State :=
  let t := abortFlight s
  let t := if flush then t.removeJobs fun _ => true else t
  (abortedViews flush s).foldl State.settle t

/-- Engine Abort's own rule (R95): the record aborted, the number removed, and then the head job's start. -/
def engineAbortRule (payload : List Byte) (s : State) : Answer :=
  match switch? (num payload 0 1) with
  | none => refuse s .badParam
  | some flush =>
    match startHead (abortEngine flush s) with
    | .error f => .stop f
    | .ok t =>
      .reply t .ok (optBytes 4 (s.flight.map fun f => f.record.toNat)
        ++ leBytes 1 (if flush then s.jobs.length else 0))

/-- ENGINE_ABORT (R95). -/
def execEngineAbort (s : State) : Result State := runCommand .engineAbort engineAbortRule s

end Sys2Proof.Machine
end

