-- ==== Sys2Proof/Machine/Management.lean ====
section
/-! DEFINITION. In-band management (spec/11): power-on, the start-up sweep, downlink reception and relay, the
interpreter's own commands, the relay buffer and Soft Reset. -/

namespace Sys2Proof.Machine

/-! ### Power-on and start-up (R169) -/

/-- POWER_ON_RESET: every block takes its power-on values; the node address is read from the strap pins (R161).
The model's queue goes on, and Frame Memory is new (log 6, log 26). -/
def execPowerOnReset (strap : Fin 15) (s : State) : Result State :=
  .next
    { State.reset with
      pending := s.pending
      epoch := s.epoch + 1
      nodeAddress := BitVec.ofNat 8 (strap.val + 1) }

/-- STARTUP_SWEEP_END: every Table Store word is 0 and STARTING clears (R21, R169); with no sweep running, nothing
happens (log 4). -/
def execStartupSweepEnd (s : State) : Result State :=
  .next (if s.starting then { s with starting := false, tableStore := [] } else s)

/-! ### Downlink reception (R160 to R162) -/

/-- A packet dispatched to the Command Buffer (R162). -/
def bufferPacket (p : Packet) (s : State) : State :=
  if s.commandBuffer.length < Config.commandPlaces then { s with commandBuffer := s.commandBuffer ++ [p] }
  else
    (s.setSticky .commandOverrun).countInterface fun k =>
      { k with commandOverruns := satInc k.commandOverruns }

/-- A packet that fails R160. -/
def discardPacket (s : State) : State :=
  (s.setSticky .downlinkCrc).countInterface fun k => { k with downlinkErrors := satInc k.downlinkErrors }

/-- A packet that passes R160, dispatched by its destination; `bytes` are its bytes as received (R161). -/
def dispatchPacket (i : Inbound) (bytes : List Byte) (s : State) : State :=
  if i.destination = s.nodeAddress then bufferPacket ⟨false, i.tag, i.command, i.payload⟩ s
  else if i.destination = Config.broadcastAddress then
    bufferPacket ⟨true, i.tag, i.command, i.payload⟩ { s with relayPort := some bytes }
  else { s with relayPort := some bytes }

/-- DOWNLINK_PACKET (R160, R161): the Relay Port's last packet has left before this one (log 17). -/
def execDownlinkPacket (packet : List Byte) (s : State) : Result State :=
  let t := { s with relayPort := none }
  match parseDownlink packet with
  | none => .next (discardPacket t)
  | some i => .next (dispatchPacket i packet t)

/-! ### Packets that execute no command (R163) -/

/-- UNKNOWN_COMMAND: the head packet, for this node, names no command; while STARTING it is answered STARTING
(R163; log 9). -/
def execUnknownCommand (s : State) : Result State :=
  match s.commandBuffer with
  | [] => .next s
  | p :: rest =>
    if p.broadcast = false ∧ namesCommand p.command = false ∧ s.responses.length < Config.responsePlaces then
      answerTo p (refuse { s with commandBuffer := rest }
        (if s.starting then .starting else .unknownCommand))
    else .next s

/-- BROADCAST_IGNORED: a broadcast head packet that is not executed is removed without effect (R163). -/
def execBroadcastIgnored (s : State) : Result State :=
  match s.commandBuffer with
  | [] => .next s
  | p :: rest =>
    if p.broadcast ∧ broadcastRuns s p = false then .next { s with commandBuffer := rest } else .next s

/-! ### Identify, Status Word, counters, notice mask (R165 to R167) -/

/-- The data of Identify (R167): "EC-64", revision 1, node address, 4 ports, 16 views, 64 descriptors, 131,072
words. -/
def identifyData (s : State) : List Byte :=
  [0x45, 0x43, 0x2D, 0x36, 0x34, 1, s.nodeAddress, 4, 16, 64] ++ leBytes 4 Config.storeWords

/-- Identify's own rule (R167). -/
def identifyRule (_payload : List Byte) (s : State) : Answer := .reply s .ok (identifyData s)

/-- IDENTIFY (R167). -/
def execIdentify (s : State) : Result State := runCommand .identify identifyRule s

/-- The Status Word: nine sticky flags, then the seven live fields, in the order of R166 (logs 12
and 31). -/
def statusWord (s : State) : List Byte :=
  leBytes 2 s.sticky.toNat
    ++ [flagByte s.starting, flagByte s.flight.isSome, loadStateCode s.loadUnit, flagByte s.paused,
        flagByte s.window.locked]
    ++ leBytes 1 s.jobs.length ++ leBytes 1 s.forwardQueue.length

/-- Get Status' own rule (R166). -/
def getStatusRule (_payload : List Byte) (s : State) : Answer := .reply s .ok (statusWord s)

/-- GET_STATUS (R166). -/
def execGetStatus (s : State) : Result State := runCommand .getStatus getStatusRule s

/-- Clear Status' own rule (R166); a bit beyond the nine flags is refused (R171). The flags stand from bit 0 up (log
31). -/
def clearStatusRule (payload : List Byte) (s : State) : Answer :=
  let mask := num payload 0 2
  if 512 ≤ mask then refuse s .badParam
  else .reply { s with sticky := s.sticky &&& ~~~ BitVec.ofNat 9 mask } .ok (leBytes 2 s.sticky.toNat)

/-- CLEAR_STATUS (R166). -/
def execClearStatus (s : State) : Result State := runCommand .clearStatus clearStatusRule s

/-- The bytes of a group of counters (R171). -/
def counterBytes (cs : List Counter) : List Byte := cs.flatMap fun c => leBytes 4 c.toNat

/-- A camera's counters in the order of R18. -/
def CameraCounters.toList (k : CameraCounters) : List Counter :=
  [k.framesPosted, k.geometryRejects, k.noSlotDrops, k.badLines, k.duplicateLines, k.linesRepaired,
    k.damagedFrames, k.endMismatches, k.sequenceGaps]

/-- A view's counters in the order of R76. -/
def ViewCounters.toList (k : ViewCounters) : List Counter :=
  [k.admitted, k.queueFullSkips, k.completed, k.degraded, k.faulted, k.slotHeldSkips, k.aborted, k.cancelled,
    k.forwarded, k.forwardDrops, k.stale]

/-- The counters of R167 in its order. -/
def InterfaceCounters.toList (k : InterfaceCounters) : List Counter :=
  [k.downlinkErrors, k.commandOverruns, k.noticesLost, k.relayBytesDropped]

/-- Read Counters' own rule (R167): group kind, number, clear option. -/
def readCountersRule (payload : List Byte) (s : State) : Answer :=
  let number := num payload 1 1
  match switch? (num payload 2 1) with
  | none => refuse s .badParam
  | some clear =>
    match num payload 0 1 with
    | 0 =>
      match below? 4 number with
      | none => refuse s .badParam
      | some c =>
        .reply (if clear then s.countCamera c fun _ => CameraCounters.zero else s) .ok
          (counterBytes (pick s.ports c).counters.toList)
    | 1 =>
      match below? 16 number with
      | none => refuse s .badParam
      | some v =>
        .reply (if clear then s.countView v fun _ => ViewCounters.zero else s) .ok
          (counterBytes (pick s.views v).counters.toList)
    | 2 =>
      .reply (if clear then s.countInterface fun _ => InterfaceCounters.zero else s) .ok
        (counterBytes s.interfaceCounters.toList)
    | _ => refuse s .badParam

/-- READ_COUNTERS (R167). -/
def execReadCounters (s : State) : Result State := runCommand .readCounters readCountersRule s

/-- Set Notice Mask's own rule (R165); a bit beyond the five flags is refused (R171). The flags stand from bit 0 up
(log 31). -/
def setNoticeMaskRule (payload : List Byte) (s : State) : Answer :=
  let mask := num payload 0 1
  if 32 ≤ mask then refuse s .badParam else accept { s with noticeMask := BitVec.ofNat 5 mask }

/-- SET_NOTICE_MASK (R165). -/
def execSetNoticeMask (s : State) : Result State := runCommand .setNoticeMask setNoticeMaskRule s

/-! ### The Relay Port inbound (R168) -/

/-- RELAY_BYTE: a byte joins the relay buffer, or is discarded at 256 bytes; the 2 ms interval restarts (R168). -/
def execRelayByte (b : Byte) (s : State) : Result State :=
  let t := { s with relayInterval := .running }
  .next
    (if s.relayBuffer.length < Config.relayPlaces then { t with relayBuffer := s.relayBuffer ++ [b] }
     else
      (t.setSticky .relayOverrun).countInterface fun k =>
        { k with relayBytesDropped := satInc k.relayBytesDropped })

/-- RELAY_IDLE_TIMEOUT: 2 ms have passed since the last byte while the buffer holds bytes (R168; log 4, log 18). -/
def execRelayIdleTimeout (s : State) : Result State :=
  .next (if s.relayBuffer.isEmpty then s else { s with relayInterval := .elapsed })

/-! ### Soft Reset (R170) -/

/-- A Camera Port at Soft Reset (R20). -/
def Port.softReset (p : Port) : Port :=
  { p with state := .off, lastSequence := none, counters := CameraCounters.zero }

/-- A source slot at Soft Reset (R20). -/
def SourceSlot.softReset (x : SourceSlot) : SourceSlot := { x with receiving := false, refs := 0 }

/-- A view at Soft Reset (R78). -/
def View.softReset (w : View) : View := { w.disable with counters := ViewCounters.zero }

/-- The job in flight's record finalised as ABORTED, with the time tag before the reset (R142). -/
def abortRecord (s : State) : State :=
  match s.flight with
  | some f => s.finalise f.record .aborted
  | none => s

/-- Soft Reset's effect on every block (R170), the packet of the command already taken. -/
def softReset (s : State) : State :=
  let t := abortRecord s
  { t with
    ports := updAll s.ports Port.softReset
    sourceSlots := updAll s.sourceSlots SourceSlot.softReset
    pins := []
    loadUnit := .idle
    views := updAll s.views View.softReset
    jobs := []
    flight := none
    timeTag := 0
    forwardQueue := []
    transmission := s.transmission.map fun x => { x with truncation := .reset }
    paused := false
    commandBuffer := []
    responses := []
    notices := []
    sticky := 0
    interfaceCounters := InterfaceCounters.zero
    relayBuffer := []
    relayInterval := .stopped }

/-- Soft Reset's own rule, addressed to this node: its response is placed in the emptied queue (R170). -/
def softResetRule (_payload : List Byte) (s : State) : Answer := accept (softReset s)

/-- SOFT_RESET (R163, R170). -/
def execSoftReset (s : State) : Result State :=
  runBroadcastable .softReset softResetRule (fun _ t => softReset t) s

end Sys2Proof.Machine
end

