-- ==== Sys2Proof/Machine/Records.lean ====
section
/-! DEFINITION. Read Records and the Time Tag Counter (spec/09 R143 to R145). -/

namespace Sys2Proof.Machine

/-- One entry of a Read Records response: a presence byte, 0 for ABSENT, and the 106 record bytes, zero when ABSENT
(R175). That the presence byte of a held record is 1 is the model's reading (log 12, DEDUCED). -/
def recordEntry (s : State) (n : RecordNumber) : List Byte :=
  match s.findRecord n with
  | some r => 1 :: recordBytes r
  | none => 0 :: List.replicate 106 0

/-- Read Records' own rule (R143): numbers first to first + count − 1 modulo 2^32, then the next record number. -/
def readRecordsRule (payload : List Byte) (s : State) : Answer :=
  let first : RecordNumber := BitVec.ofNat 32 (num payload 0 4)
  let count := num payload 4 1
  if count < 1 ∨ 8 < count then refuse s .badParam
  else
    .reply s .ok ((List.range count).flatMap (fun i => recordEntry s (first + BitVec.ofNat 32 i))
      ++ leBytes 4 s.nextRecord.toNat)

/-- READ_RECORDS (R143). -/
def execReadRecords (s : State) : Result State := runCommand .readRecords readRecordsRule s

/-- TIME_TAG_TICK: one resolution interval ends and the counter advances by 1, wrapping (R144). -/
def execTimeTagTick (s : State) : Result State := .next { s with timeTag := s.timeTag + 1 }

/-- The seven resolutions, µs per count (R144). -/
def resolutions : List Nat := [1, 2, 4, 8, 16, 32, 64]

/-- The effect of Set Time Tag; a resolution outside the seven changes nothing (R145). -/
def setTimeTag (payload : List Byte) (s : State) : State :=
  if resolutions.contains (num payload 4 1) then
    { s with timeTag := BitVec.ofNat 32 (num payload 0 4), resolution := num payload 4 1 }
  else s

/-- Set Time Tag's own rule (R145). -/
def setTimeTagRule (payload : List Byte) (s : State) : Answer :=
  if resolutions.contains (num payload 4 1) then
    let t := setTimeTag payload s
    .reply t .ok (leBytes 4 t.timeTag.toNat ++ leBytes 1 t.resolution)
  else refuse s .badParam

/-- SET_TIME_TAG (R145, R163). -/
def execSetTimeTag (s : State) : Result State := runBroadcastable .setTimeTag setTimeTagRule setTimeTag s

end Sys2Proof.Machine
end

