-- ==== Sys2Proof/Machine/Views.lean ====
section
/-! DEFINITION. The View Table's commands (spec/04): Write View, Read View, View Activate, View Hold and View
Disable. -/

namespace Sys2Proof.Machine

/-! ### Write View (R61 to R64) -/

/-- The gain-set entry at offset `off` of a Write View payload, when its level and selector are in range. -/
def gainEntryAt (payload : List Byte) (off : Nat) : Option GainEntry :=
  match below? 8 (num payload off 1), below? 64 (num payload (off + 1) 1) with
  | some l, some d => some ⟨l, d⟩
  | _, _ => none

/-- The gain set at offset `off`: four entries (R171). -/
def gainSetAt (payload : List Byte) (off : Nat) : Option (Vector GainEntry 4) :=
  match gainEntryAt payload off, gainEntryAt payload (off + 2), gainEntryAt payload (off + 4),
      gainEntryAt payload (off + 6) with
  | some a, some b, some c, some d => some #v[a, b, c, d]
  | _, _, _, _ => none

/-- Levels strictly ascend (04 4.1, R61). -/
def ascendingLevels : List GainEntry → Bool
  | [] => true
  | [_] => true
  | a :: b :: rest => decide (a.level < b.level) && ascendingLevels (b :: rest)

/-- The numeric range checks of R61 on the parameters a job latches; the scheme's parameters are checked as
given, before they are stored. -/
def jobParamsInRange (p : JobParams) : Bool :=
  ascendingLevels (usedEntries p.gainSet)
    && decide (64 ≤ p.width ∧ p.width ≤ 2048 ∧ p.width % 16 = 0)
    && decide (16 ≤ p.height ∧ p.height ≤ 2048)
    && decide (p.fill ≤ 1023)
    && (p.scheme != .ring || [2, 4, 8, 16].contains p.ringLength)
    && (p.scheme == .unbuffered ||
      decide (12 ≤ p.slotBase ∧ p.slotBase ≤ 63 ∧ p.slotBase + p.schemeLength ≤ 64))

/-- Parameters as R61 stores them: a ring length without RING, and a slot base with NONE, are stored as 0. -/
def storedJobParams (p : JobParams) : JobParams :=
  { p with
    ringLength := if p.scheme = .ring then p.ringLength else 0
    slotBase := if p.scheme = .unbuffered then 0 else p.slotBase }

/-- The parameters at job start in a Write View payload, in the order of 04 4.1; none where a code or a
number bounded by its type names no value (R61, R171). -/
def jobParamsAt (p : List Byte) : Option JobParams :=
  match gainSetAt p 4, below? 64 (num p 12 1), below? 64 (num p 13 1), switch? (num p 18 1),
      switch? (num p 19 1) with
  | some gains, some mesh, some tone, some axis, some black =>
    match format? (num p 24 1), switch? (num p 25 1), scheme? (num p 26 1) with
    | some format, some histogram, some scheme =>
      some
        { gainSet := gains
          meshSelector := mesh
          toneSelector := tone
          width := num p 14 2
          height := num p 16 2
          axisTracking := axis
          blackSubtraction := black
          referenceExposure := BitVec.ofNat 16 (num p 20 2)
          fill := num p 22 2
          format := format
          histogram := histogram
          scheme := scheme
          ringLength := num p 27 1
          slotBase := num p 28 1 }
    | _, _, _ => none
  | _, _, _, _, _ => none

/-- The parameter set of a Write View payload as R61 stores it; none where R61 or R171 refuses BAD_PARAM.
The flags of the two masks stand from bit 0 up (log 31, DEDUCED). -/
def viewParamsAt (p : List Byte) : Option ViewParams :=
  match below? 4 (num p 1 1), jobParamsAt p, switch? (num p 29 1), forwardClass? (num p 30 1) (num p 31 2),
      below? 4 (num p 33 1) with
  | some camera, some job, some advance, some cls, some priority =>
    if num p 3 1 < 8 ∧ jobParamsInRange job then
      some
        { camera := camera
          levelMask := BitVec.ofNat 8 (num p 2 1)
          kindMask := BitVec.ofNat 3 (num p 3 1)
          job := storedJobParams job
          advanceOnDegraded := advance
          forwardClass := cls
          priority := priority }
    else none
  | _, _, _, _, _ => none

/-- Some restricted field differs: camera, OW, OH, output format, scheme, ring length or slot base (R63). -/
def restrictedChange (old new : ViewParams) : Bool :=
  decide (old.camera ≠ new.camera ∨ old.job.width ≠ new.job.width ∨ old.job.height ≠ new.job.height
    ∨ old.job.format ≠ new.job.format ∨ old.job.scheme ≠ new.job.scheme
    ∨ old.job.ringLength ≠ new.job.ringLength ∨ old.job.slotBase ≠ new.job.slotBase)

/-- The new slot range shares a slot with another view's range (R62). -/
def slotConflict (s : State) (v : Fin 16) (new : ViewParams) : Bool :=
  (List.finRange 16).any fun u =>
    u != v && new.job.slotRange.overlaps (pick s.views u).params.job.slotRange

/-- A view with new parameters: its forwarding state is reset when the class changes (R64). -/
def View.rewrite (w : View) (new : ViewParams) : View :=
  if w.params.forwardClass = new.forwardClass then { w with params := new }
  else { w.resetForwarding with params := new }

/-- Write View's own rule: range, state and slot checks in that order (R61, R63, R62). -/
def writeViewRule (payload : List Byte) (s : State) : Answer :=
  match below? 16 (num payload 0 1), viewParamsAt payload with
  | some v, some new =>
    let w := pick s.views v
    if (w.state ≠ .disabled ∧ restrictedChange w.params new) ∨
        (w.state = .active ∧ new.job.meshSelector = 0) then refuse s .viewState
    else if slotConflict s v new then refuse s .slotConflict
    else accept (s.updView v fun x => x.rewrite new)
  | _, _ => refuse s .badParam

/-- WRITE_VIEW (R61). -/
def execWriteView (s : State) : Result State := runCommand .writeView writeViewRule s

/-! ### Read View (R65) -/

/-- Every parameter of 04 4.1, in the order and encoding of Write View. -/
def viewParamBytes (p : ViewParams) : List Byte :=
  leBytes 1 p.camera.val ++ leBytes 1 p.levelMask.toNat ++ leBytes 1 p.kindMask.toNat
    ++ p.job.gainSet.toList.flatMap (fun e => leBytes 1 e.level.val ++ leBytes 1 e.selector.val)
    ++ leBytes 1 p.job.meshSelector.val ++ leBytes 1 p.job.toneSelector.val
    ++ leBytes 2 p.job.width ++ leBytes 2 p.job.height
    ++ [flagByte p.job.axisTracking, flagByte p.job.blackSubtraction]
    ++ leBytes 2 p.job.referenceExposure.toNat ++ leBytes 2 p.job.fill
    ++ [p.job.format.code, flagByte p.job.histogram, p.job.scheme.code]
    ++ leBytes 1 p.job.ringLength ++ leBytes 1 p.job.slotBase
    ++ [flagByte p.advanceOnDegraded, p.forwardClass.code] ++ leBytes 2 p.forwardClass.number
    ++ leBytes 1 p.priority.val

/-- The data of Read View, in the order R65 names it. -/
def viewData (s : State) (v : Fin 16) : List Byte :=
  let w := pick s.views v
  viewParamBytes w.params ++ [w.state.code] ++ leBytes 1 w.ringPointer ++ leBytes 1 w.doubleIndex.val
    ++ optBytes 4 (w.lastGood.map BitVec.toNat) ++ leBytes 1 w.decimation
    ++ optBytes 4 (w.lastOdometer.map BitVec.toNat) ++ leBytes 1 w.burst
    ++ leBytes 1 (s.queuedJobs v) ++ [flagByte (s.inFlightOf v)]

/-- Read View's own rule (R65). -/
def readViewRule (payload : List Byte) (s : State) : Answer :=
  match below? 16 (num payload 0 1) with
  | some v => .reply s .ok (viewData s v)
  | none => refuse s .badParam

/-- READ_VIEW (R65). -/
def execReadView (s : State) : Result State := runCommand .readView readViewRule s

/-! ### View states (R68 to R70) -/

/-- An accepted view state command: OK with the view state after it. -/
def viewStateReply (s : State) (v : Fin 16) : Answer := .reply s .ok [(pick s.views v).state.code]

/-- View Activate's own rule (R68). -/
def viewActivateRule (payload : List Byte) (s : State) : Answer :=
  match below? 16 (num payload 0 1) with
  | none => refuse s .badParam
  | some v =>
    let w := pick s.views v
    let activated := s.updView v fun x => { x with state := .active }
    match w.state with
    | .disabled =>
      if w.params.job.scheme = .unbuffered ∨ w.params.job.meshSelector = 0 then refuse s .viewState
      else viewStateReply activated v
    | .held =>
      if w.params.job.meshSelector = 0 then refuse s .viewState else viewStateReply activated v
    | .active => viewStateReply s v
    | .draining => refuse s .viewState
    | .closing => refuse s .viewState

/-- VIEW_ACTIVATE (R68). -/
def execViewActivate (s : State) : Result State := runCommand .viewActivate viewActivateRule s

/-- View Hold's own rule (R69). -/
def viewHoldRule (payload : List Byte) (s : State) : Answer :=
  match below? 16 (num payload 0 1) with
  | none => refuse s .badParam
  | some v =>
    match (pick s.views v).state with
    | .active =>
      let next : ViewState := if s.outstanding v = 0 then .held else .draining
      viewStateReply (s.updView v fun x => { x with state := next }) v
    | .draining => viewStateReply s v
    | .held => viewStateReply s v
    | .disabled => refuse s .viewState
    | .closing => refuse s .viewState

/-- VIEW_HOLD (R69). -/
def execViewHold (s : State) : Result State := runCommand .viewHold viewHoldRule s

/-- View Disable's effect (R70): queued jobs removed; then CLOSING while the view's job is in flight, DISABLED
otherwise. -/
def disableView (v : Fin 16) (s : State) : State :=
  let t := s.removeJobs fun j => j.view == v
  if t.inFlightOf v then t.updView v fun w => { w with state := .closing }
  else t.updView v View.disable

/-- View Disable's own rule (R70). -/
def viewDisableRule (payload : List Byte) (s : State) : Answer :=
  match below? 16 (num payload 0 1) with
  | none => refuse s .badParam
  | some v => viewStateReply (disableView v s) v

/-- VIEW_DISABLE (R70). -/
def execViewDisable (s : State) : Result State := runCommand .viewDisable viewDisableRule s

end Sys2Proof.Machine
end

