-- ==== Sys2Proof/Machine/Dispatch.lean ====
section
/-! DEFINITION. One arm for each row of spec/opcode_table.json: the row's meaning. -/

namespace Sys2Proof.Machine

/-- The effect of one command on everything but the queue. -/
def exec (i : Instr) (s : State) : Host.Outcome State Fault Refusal :=
  match i with
  | .powerOnReset strap => Sys2Proof.Machine.execPowerOnReset strap s
  | .startupSweepEnd => Sys2Proof.Machine.execStartupSweepEnd s
  | .frameStart camera packet => Sys2Proof.Machine.execFrameStart camera packet s
  | .line camera packet => Sys2Proof.Machine.execLine camera packet s
  | .frameEnd camera packet => Sys2Proof.Machine.execFrameEnd camera packet s
  | .cameraPacketIgnored camera packet => Sys2Proof.Machine.execCameraPacketIgnored camera packet s
  | .downlinkPacket packet => Sys2Proof.Machine.execDownlinkPacket packet s
  | .unknownCommand => Sys2Proof.Machine.execUnknownCommand s
  | .broadcastIgnored => Sys2Proof.Machine.execBroadcastIgnored s
  | .identify => Sys2Proof.Machine.execIdentify s
  | .getStatus => Sys2Proof.Machine.execGetStatus s
  | .clearStatus => Sys2Proof.Machine.execClearStatus s
  | .readCounters => Sys2Proof.Machine.execReadCounters s
  | .setNoticeMask => Sys2Proof.Machine.execSetNoticeMask s
  | .softReset => Sys2Proof.Machine.execSoftReset s
  | .setCamera => Sys2Proof.Machine.execSetCamera s
  | .cameraEnable => Sys2Proof.Machine.execCameraEnable s
  | .setBlackLevel => Sys2Proof.Machine.execSetBlackLevel s
  | .writeDescriptor => Sys2Proof.Machine.execWriteDescriptor s
  | .readDescriptor => Sys2Proof.Machine.execReadDescriptor s
  | .clearAccessedDescriptor => Sys2Proof.Machine.execClearAccessedDescriptor s
  | .lockDescriptor => Sys2Proof.Machine.execLockDescriptor s
  | .unlockDescriptor => Sys2Proof.Machine.execUnlockDescriptor s
  | .lockDownDescriptor => Sys2Proof.Machine.execLockDownDescriptor s
  | .setProtectionWindow => Sys2Proof.Machine.execSetProtectionWindow s
  | .protectionLock => Sys2Proof.Machine.execProtectionLock s
  | .loadOpen => Sys2Proof.Machine.execLoadOpen s
  | .loadData => Sys2Proof.Machine.execLoadData s
  | .loadCommit => Sys2Proof.Machine.execLoadCommit s
  | .loadCancel => Sys2Proof.Machine.execLoadCancel s
  | .streamOpen => Sys2Proof.Machine.execStreamOpen s
  | .streamData => Sys2Proof.Machine.execStreamData s
  | .streamCancel => Sys2Proof.Machine.execStreamCancel s
  | .readTable => Sys2Proof.Machine.execReadTable s
  | .writeView => Sys2Proof.Machine.execWriteView s
  | .readView => Sys2Proof.Machine.execReadView s
  | .viewActivate => Sys2Proof.Machine.execViewActivate s
  | .viewHold => Sys2Proof.Machine.execViewHold s
  | .viewDisable => Sys2Proof.Machine.execViewDisable s
  | .engineAbort => Sys2Proof.Machine.execEngineAbort s
  | .setTimeTag => Sys2Proof.Machine.execSetTimeTag s
  | .readRecords => Sys2Proof.Machine.execReadRecords s
  | .recallFrame => Sys2Proof.Machine.execRecallFrame s
  | .recallLatest => Sys2Proof.Machine.execRecallLatest s
  | .uplinkPause => Sys2Proof.Machine.execUplinkPause s
  | .uplinkResume => Sys2Proof.Machine.execUplinkResume s
  | .uplinkFlush => Sys2Proof.Machine.execUplinkFlush s
  | .jobStart => Sys2Proof.Machine.execJobStart s
  | .outputPixel => Sys2Proof.Machine.execOutputPixel s
  | .jobEnd => Sys2Proof.Machine.execJobEnd s
  | .timeTagTick => Sys2Proof.Machine.execTimeTagTick s
  | .relayByte byte => Sys2Proof.Machine.execRelayByte byte s
  | .relayIdleTimeout => Sys2Proof.Machine.execRelayIdleTimeout s
  | .uplinkPortReady => Sys2Proof.Machine.execUplinkPortReady s

end Sys2Proof.Machine
end

