-- ==== Sys2Proof/Safety.lean ====
section
/-! DEFINITION. What a safe state is, in the terms the statements use: the invariants the spec states of the
part, each over the plain data of `State`, and the terms in which a command's execution is stated. -/

namespace Sys2Proof

/-- The command of the Command Interpreter that a row executes; none for the other rows (11 11.7). -/
def Instr.command? : Instr → Option Machine.Command
  | .identify => some .identify
  | .getStatus => some .getStatus
  | .clearStatus => some .clearStatus
  | .readCounters => some .readCounters
  | .setNoticeMask => some .setNoticeMask
  | .softReset => some .softReset
  | .setCamera => some .setCamera
  | .cameraEnable => some .cameraEnable
  | .setBlackLevel => some .setBlackLevel
  | .writeDescriptor => some .writeDescriptor
  | .readDescriptor => some .readDescriptor
  | .clearAccessedDescriptor => some .clearAccessedDescriptor
  | .lockDescriptor => some .lockDescriptor
  | .unlockDescriptor => some .unlockDescriptor
  | .lockDownDescriptor => some .lockDownDescriptor
  | .setProtectionWindow => some .setProtectionWindow
  | .protectionLock => some .protectionLock
  | .loadOpen => some .loadOpen
  | .loadData => some .loadData
  | .loadCommit => some .loadCommit
  | .loadCancel => some .loadCancel
  | .streamOpen => some .streamOpen
  | .streamData => some .streamData
  | .streamCancel => some .streamCancel
  | .readTable => some .readTable
  | .writeView => some .writeView
  | .readView => some .readView
  | .viewActivate => some .viewActivate
  | .viewHold => some .viewHold
  | .viewDisable => some .viewDisable
  | .engineAbort => some .engineAbort
  | .setTimeTag => some .setTimeTag
  | .readRecords => some .readRecords
  | .recallFrame => some .recallFrame
  | .recallLatest => some .recallLatest
  | .uplinkPause => some .uplinkPause
  | .uplinkResume => some .uplinkResume
  | .uplinkFlush => some .uplinkFlush
  | .powerOnReset _ | .startupSweepEnd | .frameStart _ _ | .line _ _ | .frameEnd _ _
  | .cameraPacketIgnored _ _ | .downlinkPacket _ | .unknownCommand | .broadcastIgnored | .jobStart
  | .outputPixel | .jobEnd | .timeTagTick | .relayByte _ | .relayIdleTimeout | .uplinkPortReady => none

end Sys2Proof

namespace Sys2Proof.Machine

/-! ### The execution of a command (R163) -/

/-- Packet `p` stands at the head of the Command Buffer with `rest` behind it, is addressed to this node and
carries command `c`, and the Response Queue has a free place: the interpreter starts it (R163). -/
structure Started (c : Command) (p : Packet) (rest : List Packet) (s : State) : Prop where
  buffer : s.commandBuffer = p :: rest
  addressed : p.broadcast = false
  code : p.command = c.code
  room : s.responses.length < Config.responsePlaces

/-- No patch load is open (R42). -/
def State.noPatchLoad (s : State) : Prop := ∀ d t b, s.loadUnit ≠ .loading d t b

/-- The first three checks of R163 let command `c` through to the check of its payload's length: the part is not
STARTING or the command is served while STARTING, and the load state lets it proceed (R43). -/
def Command.Proceeds (c : Command) (s : State) : Prop :=
  (s.starting = false ∨ c = .identify ∨ c = .getStatus)
    ∧ match s.loadUnit with
      | .idle => True
      | .loading _ _ _ => c ∈ [Command.loadData, .loadCommit, .loadCancel, .getStatus, .identify, .readDescriptor,
          .readView, .readTable, .readRecords, .readCounters, .softReset]
      | .streaming _ _ _ => c ≠ .loadOpen ∧ c ≠ .streamOpen

/-- The part is not STARTING and no patch load is open: steps 1 and 3 of R163 let every command through but a
Load Open or Stream Open that meets an open stream (R43). -/
structure Ready (s : State) : Prop where
  running : s.starting = false
  noLoad : s.noPatchLoad

/-- The state once packet `p` has left the Command Buffer and its response stands at the tail of the Response
Queue (R163); a command's own effects are stated on top of it. -/
def State.answered (s : State) (p : Packet) (rest : List Packet) (status : Status) (data : List Byte) : State :=
  { s with
    commandBuffer := rest
    responses := s.responses ++ [⟨p.tag, p.command, status, data⟩] }

/-! ### The start of a job (R82 to R84, R140) -/

/-- The engine is IDLE, `j` is the head job with `rest` behind it, and the Record List is one that consecutive
numbering gives: the next record number is not held (R82, R139). -/
structure Startable (j : Job) (rest : List Job) (s : State) : Prop where
  idle : s.flight = none
  head : s.jobs = j :: rest
  bound : s.records.length ≤ 1024
  fresh : ∀ r ∈ s.records, r.number ≠ s.nextRecord

/-- Output slot `x` is the slot the view's next job writes (the table of R84). -/
def View.writesNext (w : View) (x : Fin 52) : Prop :=
  match w.params.job.scheme with
  | .unbuffered => False
  | .single => x.val + 12 = w.params.job.slotBase
  | .double => x.val + 12 = w.params.job.slotBase + w.doubleIndex.val
  | .ring => x.val + 12 = w.params.job.slotBase + w.ringPointer

/-- The head job taken and record `r` made (R82, R140): it takes the next number; at 1024 records the oldest is
removed, and a record in place 0 that removes one raises RECORD_ROLLOVER. A start's other effects are stated on
top of it. -/
def State.started (s : State) (rest : List Job) (r : Record) : State :=
  let full := decide (1024 ≤ s.records.length)
  { (if full && s.nextRecord.toNat % 1024 == 0 then s.raise (.recordRollover s.nextRecord) else s) with
    jobs := rest
    records := (if full then s.records.drop 1 else s.records) ++ [r]
    nextRecord := s.nextRecord + 1 }

/-- The descriptors with the accessed flag of every latched one set (R86). -/
def State.accessedBy (s : State) (latched : List (Fin 64)) : Vector Descriptor 64 :=
  tabulate fun d =>
    let x := pick s.descriptors d
    if latched.contains d then { x with accessed := true } else x

/-! ### The uplink (R154, R155) -/

/-- A relay packet is ready: 64 bytes, or 2 ms since the last of at least one byte (R168). -/
def State.relayWaiting (s : State) : Prop :=
  64 ≤ s.relayBuffer.length ∨ (s.relayBuffer ≠ [] ∧ s.relayInterval = .elapsed)

/-- Nothing waits in the first three places of the arbiter's order (R154). -/
structure ImagesNext (s : State) : Prop where
  responses : s.responses = []
  relay : ¬ s.relayWaiting
  notices : s.notices = []

/-- The frame of a slot and generation has moved on: the slot is the engine's write slot, or its generation
differs (R135, R152, R155). -/
def State.movedOn (s : State) (m : SlotMark) : Prop :=
  (∃ f ∈ s.flight, f.slot = m.slot) ∨ (pick s.outputSlots m.slot).generation ≠ m.generation

/-! ### Bounds of the collections -/

/-- Each queue, list and buffer holds no more than its places (R80, R139, R150, R162, R164, R165, R168), and the
Forward Queue stands in descending priority (R150; log 27). -/
structure QueuesBounded (s : State) : Prop where
  commands : s.commandBuffer.length ≤ 8
  responses : s.responses.length ≤ 4
  notices : s.notices.length ≤ 16
  jobs : s.jobs.length ≤ 32
  records : s.records.length ≤ 1024
  forwards : s.forwardQueue.length ≤ 64
  relay : s.relayBuffer.length ≤ 256
  forwardOrder : s.forwardQueue.Pairwise fun x y => y.priority ≤ x.priority

/-- The Forward Queue holds no two entries for the same record, and none yet for the record of the job in flight
(R150). -/
structure ForwardsDistinct (s : State) : Prop where
  distinct : s.forwardQueue.Pairwise fun x y => x.record ≠ y.record
  fresh : ∀ f ∈ s.flight, ∀ e ∈ s.forwardQueue, e.record ≠ f.record

/-! ### Source slots (R14, R15) -/

/-- Queued and in-flight jobs that name source slot `i` (R14). -/
def State.jobsNaming (s : State) (i : Fin 12) : Nat :=
  s.jobs.countP (fun j => j.slot == i) + s.flight.toList.countP (fun f => f.job.slot == i)

/-- "For every source slot, the reference count equals the number of queued and in-flight jobs that name it"
(R14). -/
def ReferencesCounted (s : State) : Prop :=
  ∀ i, (pick s.sourceSlots i).refs = s.jobsNaming i

/-- The reception of a port in RECEIVE; none in the other states. -/
def Port.reception? (p : Port) : Option Reception :=
  match p.state with
  | .receive r => some r
  | .off => none
  | .wait => none
  | .discard => none

/-- A port in RECEIVE writes a slot of its own camera that is marked receiving and that no job names; every
receiving slot is one of these (R5, R12, R14, R15). -/
structure IntakeSound (s : State) : Prop where
  ports : ∀ c, ∀ r ∈ (pick s.ports c).reception?,
    r.slot.val / 3 = c.val ∧ (pick s.sourceSlots r.slot).receiving = true
      ∧ (pick s.sourceSlots r.slot).refs = 0
      ∧ r.expected ≤ (pick s.ports c).height ∧ r.repairs ≤ (pick s.ports c).repairLimit
  slots : ∀ i : Fin 12, (pick s.sourceSlots i).receiving = true →
    ∃ c, ∃ r ∈ (pick s.ports c).reception?, r.slot = i

/-! ### Output slots (R91, R136) -/

/-- A slot is held exactly while the current transmission is from it, and the write slot is not held (R91,
R136). -/
structure HoldsSound (s : State) : Prop where
  held : ∀ x, (pick s.outputSlots x).held = true ↔ ∃ t ∈ s.transmission, t.entry.mark.slot = x
  writeSlot : ∀ f ∈ s.flight, (pick s.outputSlots f.slot).held = false

/-! ### Tables (R22, R38, R40, R41, R42) -/

/-- The fields the Load Unit holds lie in their ranges (3.1, R45, R46, R51, R52). -/
def LoadUnit.fits : LoadUnit → Prop
  | .idle => True
  | .loading d t b => d ≠ 0 ∧ 1 ≤ t.count ∧ t.count ≤ 256 ∧ t.first + t.count ≤ 131072 ∧ b.length ≤ t.count
  | .streaming d t n => d ≠ 0 ∧ t.first + t.count ≤ 131072 ∧ n < t.count ∧ n % 256 = 0

/-- Every descriptor covers words of the store (R22); descriptor 0 is the null descriptor; the Load Unit's fields
lie in their ranges; pins stand only while a job is in flight, at most four, inside the store; and an open
stream's words meet no protected word and no pin (R38, R40, R41). -/
structure TablesSound (s : State) : Prop where
  descriptors : ∀ d, (pick s.descriptors d).base % 64 = 0 ∧ (pick s.descriptors d).limit ≤ 4095
    ∧ (pick s.descriptors d).base + (pick s.descriptors d).span ≤ 131072
  null : pick s.descriptors 0 = Descriptor.powerOn
  loads : s.loadUnit.fits
  idle : s.flight = none → s.pins = []
  pinCount : s.pins.length ≤ 4
  pinWords : ∀ x ∈ s.pins, x.first + x.count ≤ 131072
  reserved : ∀ t ∈ s.reservation, ∀ a, t.first ≤ a → a < t.first + t.count →
    s.window.protects a = false ∧ ∀ x ∈ s.pins, ¬ (x.first ≤ a ∧ a < x.first + x.count)

/-! ### Views and their jobs (R62, R63, R73, R74, R82) -/

/-- A view's forwarding state lies in the ranges of R74 for its class, and is as R64 and R73 leave it where the
class does not use it. -/
def View.forwardingFits (w : View) : Prop :=
  match w.params.forwardClass with
  | .off => w.decimation = 0 ∧ w.lastOdometer = none ∧ w.burst = 0
  | .every => w.decimation = 0 ∧ w.lastOdometer = none ∧ w.burst = 0
  | .decimate n => w.decimation < n ∧ w.lastOdometer = none ∧ w.burst = 0
  | .spacing _ => w.decimation = 0 ∧ w.burst = 0
  | .marker k => w.decimation = 0 ∧ w.lastOdometer = none ∧ w.burst ≤ k

/-- A view's buffering parameters and pointers (04 4.1, R74): with scheme NONE the view is DISABLED and holds no
slots; otherwise its slot range lies in 12 to 63 and its geometry in range; the ring pointer stays below the ring
length. -/
def View.bufferFits (w : View) : Prop :=
  match w.params.job.scheme with
  | .unbuffered => w.state = .disabled ∧ w.ringPointer = 0
  | .single => w.ringPointer = 0
  | .double => w.ringPointer = 0
  | .ring => w.params.job.ringLength ∈ [2, 4, 8, 16] ∧ w.ringPointer < w.params.job.ringLength

/-- One view on its own is sound (4.1, R63, R68, R73, R74). -/
structure ViewFits (w : View) : Prop where
  buffer : w.bufferFits
  range : w.params.job.scheme ≠ .unbuffered →
    12 ≤ w.params.job.slotBase ∧ w.params.job.slotBase + w.params.job.schemeLength ≤ 64
  geometry : w.params.job.scheme ≠ .unbuffered →
    64 ≤ w.params.job.width ∧ w.params.job.width ≤ 2048 ∧ w.params.job.width % 16 = 0
      ∧ 16 ≤ w.params.job.height ∧ w.params.job.height ≤ 2048
  fill : w.params.job.fill ≤ 1023
  forwarding : w.forwardingFits
  active : w.state = .active → w.params.job.meshSelector ≠ 0
  disabled : w.state = .disabled →
    w.ringPointer = 0 ∧ w.doubleIndex = 0 ∧ w.decimation = 0 ∧ w.lastOdometer = none ∧ w.burst = 0

/-- Every view is sound on its own, and no output slot lies in the slot ranges of two views (R62). -/
structure ViewsSound (s : State) : Prop where
  each : ∀ v, ViewFits (pick s.views v)
  apart : ∀ u v, u ≠ v →
    (pick s.views u).params.job.slotRange.overlaps (pick s.views v).params.job.slotRange = false

/-- The state table of 4.3 and R82: a queued job's view is ACTIVE or DRAINING; the view of the job in flight is
ACTIVE, DRAINING or CLOSING; a CLOSING view's job is in flight. -/
structure JobsSound (s : State) : Prop where
  queued : ∀ j ∈ s.jobs, (pick s.views j.view).state = .active ∨ (pick s.views j.view).state = .draining
  inFlight : ∀ f ∈ s.flight, (pick s.views f.job.view).state = .active
    ∨ (pick s.views f.job.view).state = .draining ∨ (pick s.views f.job.view).state = .closing
  closing : ∀ v, (pick s.views v).state = .closing → s.inFlightOf v = true

/-! ### Records (R139, R141) -/

/-- The parts a record holds, by its status (the table of R141). The histogram part of a COMPLETE or DEGRADED record
depends on the option its job latched, which the record does not hold: see `TalliesSound.kept` and the statement
RecordsKept. -/
def Record.partsFit (r : Record) : Prop :=
  match r.status with
  | .inProgress => r.tagFinal = none ∧ r.mark.isSome ∧ r.statistics = none ∧ r.histogram = none
  | .complete => r.tagFinal.isSome ∧ r.mark.isSome ∧ r.statistics.isSome
  | .degraded => r.tagFinal.isSome ∧ r.mark.isSome ∧ r.statistics.isSome
  | .fault => r.tagFinal.isSome ∧ r.mark = none ∧ r.statistics = none ∧ r.histogram = none
  | .skipped => r.tagFinal.isSome ∧ r.mark = none ∧ r.statistics = none ∧ r.histogram = none
  | .aborted => r.tagFinal.isSome ∧ r.mark.isSome ∧ r.statistics = none ∧ r.histogram = none

/-- The Record List (R139): at most 1024 records with consecutive numbers, the newest last and numbered one
below the next record number; a record is IN_PROGRESS exactly when it is the job in flight's, which is the
newest; every record holds the parts of its status (R141). -/
structure RecordsSound (s : State) : Prop where
  bound : s.records.length ≤ 1024
  numbers : s.records.map Record.number =
    (List.range s.records.length).map fun i =>
      s.nextRecord - BitVec.ofNat 32 s.records.length + BitVec.ofNat 32 i
  newest : ∀ f ∈ s.flight, s.records ≠ [] ∧ f.record + 1 = s.nextRecord
  inProgress : ∀ r ∈ s.records, r.status = .inProgress ↔ ∃ f ∈ s.flight, f.record = r.number
  parts : ∀ r ∈ s.records, r.partsFit

/-! ### The running tallies (R129 to R131) -/

/-- The tallies of the job in flight: every pixel produced is counted once, in or out of field; the saturated
pixels are among those in field; the bins are kept exactly when the latched histogram option is on, and sum to the
in-field count (R129 to R131). -/
structure TalliesSound (s : State) : Prop where
  counted : ∀ f ∈ s.flight, f.tallies.inField + f.tallies.outOfField = f.produced
  saturated : ∀ f ∈ s.flight, f.tallies.saturated ≤ f.tallies.inField
  kept : ∀ f ∈ s.flight, f.tallies.bins.isSome = f.params.histogram
  binned : ∀ f ∈ s.flight, ∀ b ∈ f.tallies.bins, b.toList.sum = f.tallies.inField

end Sys2Proof.Machine
end

