-- ==== Sys2Proof/Certificates/Slice0/Obligations.lean ====
section
/-! DEFINITION. The statements for the provers, one `def Obligations.<Name> : Prop` each. -/

open Sys2Proof Sys2Proof.Machine

/-! ### The machine and the Command Interpreter -/

/-- The model's queue (log 2): a step takes the front command and is its `exec` on the state with the queue's
rest; with an empty queue the block idles. -/
def Obligations.StepRunsTheFront : Prop :=
  (∀ (c : Instr) (rest : List Instr) (s : State),
    step { s with pending := c :: rest } = exec c { s with pending := rest })
  ∧ ∀ s : State, s.pending = [] → step s = .next s

/-- The first four checks of R163, for every one of the 38 commands: a row whose packet is not at the head, or
that meets a full Response Queue or a broadcast head it does not execute, changes nothing (log 1); while STARTING
every command but Identify and Get Status is answered STARTING; in every load state that lets the command proceed
(R43), a payload of another length than R171 fixes is answered BAD_LENGTH, and an on-off byte other than 0 and 1
BAD_PARAM (the rows whose statements below take the switch as on or off). Nothing else changes. -/
def Obligations.InterpreterChecks : Prop :=
  ∀ (i : Instr) (c : Command) (s : State), i.command? = some c →
    (s.commandBuffer = [] → exec i s = .next s)
    ∧ (∀ p rest, s.commandBuffer = p :: rest → p.broadcast = false →
        (p.command ≠ c.code ∨ 4 ≤ s.responses.length) → exec i s = .next s)
    ∧ (∀ p rest, s.commandBuffer = p :: rest → p.broadcast = true →
        ((c ≠ .setTimeTag ∧ c ≠ .softReset) ∨ p.command ≠ c.code ∨ s.starting = true
          ∨ (c = .setTimeTag ∧ p.payload.length ≠ 5) ∨ (c = .softReset ∧ p.payload ≠ [])) →
        exec i s = .next s)
    ∧ (∀ p rest, Started c p rest s → s.starting = true → c ≠ .identify → c ≠ .getStatus →
        exec i s = .next (s.answered p rest .starting []))
    ∧ (∀ p rest n k, Started c p rest s → c.Proceeds s →
        (c, n, k) ∈ [(Command.setCamera, 15, 6), (.cameraEnable, 2, 1), (.readDescriptor, 2, 1),
          (.engineAbort, 1, 0)] →
        p.payload.length = n → 1 < num p.payload k 1 → exec i s = .next (s.answered p rest .badParam []))
    ∧ ∀ p rest n, Started c p rest s → c.Proceeds s →
        (c, n) ∈ [(Command.identify, 0), (.getStatus, 0), (.clearStatus, 2), (.readCounters, 3),
          (.setNoticeMask, 1), (.softReset, 0), (.setCamera, 15), (.cameraEnable, 2), (.setBlackLevel, 3),
          (.writeDescriptor, 10), (.readDescriptor, 2), (.clearAccessedDescriptor, 8), (.lockDescriptor, 1),
          (.unlockDescriptor, 1), (.lockDownDescriptor, 1), (.setProtectionWindow, 3), (.protectionLock, 0),
          (.loadOpen, 7), (.loadCommit, 0), (.loadCancel, 0), (.streamOpen, 9), (.streamCancel, 0),
          (.readTable, 6), (.writeView, 34), (.readView, 1), (.viewActivate, 1), (.viewHold, 1),
          (.viewDisable, 1), (.engineAbort, 1), (.setTimeTag, 5), (.readRecords, 5), (.recallFrame, 4),
          (.recallLatest, 1), (.uplinkPause, 0), (.uplinkResume, 0), (.uplinkFlush, 0)] →
        p.payload.length ≠ n → exec i s = .next (s.answered p rest .badLength [])

/-- R44: an open patch load is cancelled by a command outside the load's allowed set (R43), by an overlong Load
Data (R46) and by a short commit (R47): the unit is IDLE with buffer and load fields gone, LOAD_SEQUENCE is set,
the command is answered with its own refusal, and nothing else changes. -/
def Obligations.PatchLoadCancelled : Prop :=
  ∀ (s : State) (p : Packet) (rest : List Packet) (d : Fin 64) (target : Span) (buffer : List Word),
    s.starting = false → s.loadUnit = .loading d target buffer →
    (∀ i c, i.command? = some c →
      c ∉ [Command.loadData, .loadCommit, .loadCancel, .getStatus, .identify, .readDescriptor, .readView,
        .readTable, .readRecords, .readCounters, .softReset] →
      Started c p rest s →
      exec i s = .next { s.answered p rest .sequence [] with
        loadUnit := .idle, sticky := withBit s.sticky StickyFlag.loadSequence.bit })
    ∧ (∀ ws : List Word, Started .loadData p rest s → p.payload = ws.flatMap (fun w => leBytes 4 w.toNat) →
      ws ≠ [] → ws.length ≤ 256 → target.count < buffer.length + ws.length →
      exec .loadData s = .next { s.answered p rest .sequence [] with
        loadUnit := .idle, sticky := withBit s.sticky StickyFlag.loadSequence.bit })
    ∧ (Started .loadCommit p rest s → p.payload = [] → buffer.length < target.count →
      exec .loadCommit s = .next { s.answered p rest .incomplete [] with
        loadUnit := .idle, sticky := withBit s.sticky StickyFlag.loadSequence.bit })

/-- Packets that execute no command (R163): a command byte that names no command is answered UNKNOWN_COMMAND,
whatever the load state (while STARTING it is answered STARTING, log 9); a broadcast packet other than a Set Time
Tag or Soft Reset of the right length, or any while STARTING, is removed without effect. -/
def Obligations.NoCommandExecuted : Prop :=
  ∀ (s : State) (p : Packet) (rest : List Packet), s.commandBuffer = p :: rest →
    (p.broadcast = false → (p.command = 0 ∨ 39 ≤ p.command.toNat) → s.responses.length < 4 →
      exec .unknownCommand s =
        .next (s.answered p rest (if s.starting then .starting else .unknownCommand) []))
    ∧ (p.broadcast = true →
      (s.starting = true ∨ (p.command ≠ 32 ∧ p.command ≠ 6) ∨ (p.command = 32 ∧ p.payload.length ≠ 5)
        ∨ (p.command = 6 ∧ p.payload ≠ [])) →
      exec .broadcastIgnored s = .next { s with commandBuffer := rest })

/-- "Each executed packet for this node places exactly one response at the tail of the Response Queue" (R163):
with the packet's tag and command byte, and result data only with OK or DONE; the packet leaves the Command
Buffer. A Soft Reset that is executed empties both first (R170). -/
def Obligations.OneResponseEach : Prop :=
  ∀ (i : Instr) (c : Command) (s t : State) (p : Packet) (rest : List Packet), i.command? = some c →
    Started c p rest s → exec i s = .next t →
    ∃ status data,
      t.responses = (if c = .softReset ∧ status = .ok then [] else s.responses)
        ++ [⟨p.tag, p.command, status, data⟩]
      ∧ t.commandBuffer = (if c = .softReset ∧ status = .ok then [] else rest)
      ∧ (status ≠ .ok → status ≠ .done → data = [])
      ∧ t.pending = s.pending

/-! ### Resets -/

/-- Power-on (R169): every block takes its power-on values (R19, R30, R38, R40, R41, R59, R77, R98, R135, R136,
R142, R144, R159, R162, R164 to R168) with STARTING set and the node address read from the strap pins (R161); the
model's queue goes on and its epoch advances (log 26). At the sweep's end every word of the Table Store is 0 and
STARTING clears. -/
def Obligations.PowerOnAndSweep : Prop :=
  (∀ (strap : Fin 15) (s : State), ∃ t, exec (.powerOnReset strap) s = .next t
    ∧ t.starting = true ∧ t.nodeAddress.toNat = strap.val + 1
    ∧ (∀ c, pick t.ports c = ⟨.off, 0, 0, 0, false, ⟨0, 0, 0, 0⟩, 0, none, ⟨0, 0, 0, 0, 0, 0, 0, 0, 0⟩⟩)
    ∧ (∀ i, (pick t.sourceSlots i).receiving = false ∧ (pick t.sourceSlots i).refs = 0)
    ∧ (∀ x, (pick t.outputSlots x).generation = 0 ∧ (pick t.outputSlots x).held = false)
    ∧ (∀ d, pick t.descriptors d = ⟨0, 0, .word, .untyped, false, false, .unlocked⟩)
    ∧ t.window = ⟨0, .bottom, false, false⟩ ∧ t.pins = [] ∧ t.loadUnit = .idle
    ∧ t.reservation = none ∧ t.wordsStreamed = 0
    ∧ (∀ v, (pick t.views v).state = .disabled ∧ (pick t.views v).ringPointer = 0
      ∧ (pick t.views v).doubleIndex = 0 ∧ (pick t.views v).lastGood = none
      ∧ (pick t.views v).decimation = 0 ∧ (pick t.views v).lastOdometer = none ∧ (pick t.views v).burst = 0
      ∧ (pick t.views v).counters = ⟨0, 0, 0, 0, 0, 0, 0, 0, 0, 0, 0⟩
      ∧ (pick t.views v).params =
        ⟨0, 0, 0, ⟨#v[⟨0, 0⟩, ⟨0, 0⟩, ⟨0, 0⟩, ⟨0, 0⟩], 0, 0, 0, 0, false, false, 0, 0, .code10, false,
          .unbuffered, 0, 0⟩, false, .off, 0⟩)
    ∧ t.jobs = [] ∧ t.flight = none ∧ t.records = [] ∧ t.nextRecord = 0 ∧ t.timeTag = 0 ∧ t.resolution = 1
    ∧ t.forwardQueue = [] ∧ t.transmission = none ∧ t.paused = false
    ∧ t.commandBuffer = [] ∧ t.responses = [] ∧ t.notices = [] ∧ t.sticky = 0
    ∧ t.noticeMask = BitVec.allOnes 5 ∧ t.interfaceCounters = ⟨0, 0, 0, 0⟩
    ∧ t.relayBuffer = [] ∧ t.relayInterval = .stopped
    ∧ t.pending = s.pending ∧ t.epoch = s.epoch + 1)
  ∧ ∀ s : State, s.starting = true → ∃ t, exec .startupSweepEnd s = .next t
    ∧ t.starting = false ∧ (∀ a, storeRead t.tableStore a = 0)
    ∧ t = { s with starting := false, tableStore := t.tableStore }

/-- Soft Reset (R170 with R20, R60, R78, R98, R142, R144, R159): for a packet addressed to this node with the
empty payload of R171, and for the same packet by broadcast, then without a response. Each field not named here is
kept: the Table Store, descriptors, window, view parameters and last-good records, output slots, record numbers,
resolution, notice mask and node address. The model's choices: no relay interval runs afterwards (log 18), the ports'
last packets stand (log 17), and a transmission that a flush had already truncated counts as truncated by the reset
(log 16). -/
def Obligations.SoftResetEffects : Prop :=
  ∀ (s : State) (p : Packet) (rest : List Packet), s.commandBuffer = p :: rest →
    p.command = 6 → p.payload = [] → s.starting = false →
    (p.broadcast = true ∨ s.responses.length < 4) →
    ∃ t, exec .softReset s = .next t
      ∧ t.responses = (if p.broadcast then [] else [⟨p.tag, p.command, .ok, []⟩])
      ∧ (∀ c, pick t.ports c = { pick s.ports c with
          state := .off, lastSequence := none, counters := ⟨0, 0, 0, 0, 0, 0, 0, 0, 0⟩ })
      ∧ (∀ i, pick t.sourceSlots i = { pick s.sourceSlots i with receiving := false, refs := 0 })
      ∧ (∀ v, pick t.views v = { pick s.views v with
          state := .disabled, ringPointer := 0, doubleIndex := 0, decimation := 0, lastOdometer := none,
          burst := 0, counters := ⟨0, 0, 0, 0, 0, 0, 0, 0, 0, 0, 0⟩ })
      ∧ t.records = s.records.map (fun r =>
          if ∃ f ∈ s.flight, r.number = f.record
          then { r with status := .aborted, tagFinal := some s.timeTag } else r)
      ∧ t.transmission = s.transmission.map (fun x => { x with truncation := .reset })
      ∧ t = { s with
          ports := t.ports, sourceSlots := t.sourceSlots, views := t.views, records := t.records
          transmission := t.transmission, responses := t.responses, pins := [], loadUnit := .idle
          jobs := [], flight := none, timeTag := 0, forwardQueue := [], paused := false
          commandBuffer := [], notices := [], sticky := 0, interfaceCounters := ⟨0, 0, 0, 0⟩
          relayBuffer := [], relayInterval := .stopped }

/-! ### Camera Ports -/

/-- The camera packet layouts (R174, with the CRC-16 of R7), and the packets ignored (R3): in OFF all three kinds; in
WAIT and DISCARD Line and Frame End; in every state a packet of another kind byte or length. An ignored packet changes
nothing. That the CRC-16 is carried least significant byte first is the model's reading (log 14). -/
def Obligations.CameraPackets : Prop :=
  (∀ (sequence exposure : Half) (width height : Nat) (level : Fin 8) (kind : Fin 4) (marker : Bool)
      (ox oy : BitVec 12) (odometer : Word), width < 65536 → height < 65536 →
    parseFrameStart (1 :: leBytes 2 sequence.toNat ++ leBytes 2 width ++ leBytes 2 height
        ++ leBytes 2 exposure.toNat ++ leBytes 1 (level.val + 8 * kind.val + if marker then 32 else 0)
        ++ leBytes 3 (ox.toNat + 4096 * oy.toNat) ++ leBytes 4 odometer.toNat)
      = some ⟨sequence, width, height, exposure, level,
          (match kind with | 0 => some .normal | 1 => some .dark | 2 => some .test | 3 => none),
          marker, ox, oy, odometer⟩)
  ∧ (∀ (n : Nat) (field : List Byte), n < 65536 →
    parseLine (2 :: leBytes 2 n ++ field ++ leBytes 2 (crc16 (leBytes 2 n ++ field)).toNat)
      = some ⟨n, field, true⟩)
  ∧ (∀ (a b : Pixel) (rest : List Byte),
    unpackPixels (BitVec.ofNat 8 a.toNat :: BitVec.ofNat 8 (a.toNat / 256 + 16 * b.toNat)
      :: BitVec.ofNat 8 (b.toNat / 16) :: rest) = a :: b :: unpackPixels rest)
  ∧ (∀ n, n < 65536 → parseFrameEnd (3 :: leBytes 2 n) = some n)
  ∧ ∀ (s : State) (c : Fin 4) (packet : List Byte),
    exec (.cameraPacketIgnored c packet) s = .next s
    ∧ ((pick s.ports c).state = .off → exec (.frameStart c packet) s = .next s)
    ∧ ((pick s.ports c).state = .off ∨ (pick s.ports c).state = .wait ∨ (pick s.ports c).state = .discard →
      exec (.line c packet) s = .next s ∧ exec (.frameEnd c packet) s = .next s)
    ∧ (packet.head? ≠ some 1 ∨ packet.length ≠ 17 → exec (.frameStart c packet) s = .next s)
    ∧ (packet.head? ≠ some 2 ∨ packet.length < 5 → exec (.line c packet) s = .next s)
    ∧ (packet.head? ≠ some 3 ∨ packet.length ≠ 3 → exec (.frameEnd c packet) s = .next s)

/-- A Frame Start (R5, R6, R15). In WAIT and DISCARD: a header that does not match goes to DISCARD and counts a
geometry reject; with no free slot of the camera the port goes to DISCARD and counts a no-slot drop; otherwise the
lowest-numbered free slot is marked receiving and the port goes to RECEIVE with the header kept. In RECEIVE the
frame is first closed as by a Frame End that carries the configured height, and the packet is then taken in the
state this leaves. -/
def Obligations.FrameStartTaken : Prop :=
  ∀ (s : State) (c : Fin 4) (packet : List Byte) (f : FrameStartFields), parseFrameStart packet = some f →
    ((pick s.ports c).state = .wait ∨ (pick s.ports c).state = .discard →
      (f.kind = none ∨ f.width ≠ (pick s.ports c).width ∨ f.height ≠ (pick s.ports c).height →
        exec (.frameStart c packet) s = .next { s with
          ports := upd s.ports c fun p => { p with
            state := .discard
            counters := { p.counters with geometryRejects := satInc p.counters.geometryRejects } } })
      ∧ ∀ kind, f.kind = some kind → f.width = (pick s.ports c).width → f.height = (pick s.ports c).height →
        ((∀ k : Fin 3, (pick s.sourceSlots (sourceSlot c k)).receiving = true
            ∨ (pick s.sourceSlots (sourceSlot c k)).refs ≠ 0) →
          exec (.frameStart c packet) s = .next { s with
            ports := upd s.ports c fun p => { p with
              state := .discard
              counters := { p.counters with noSlotDrops := satInc p.counters.noSlotDrops } } })
        ∧ ∀ k : Fin 3, (pick s.sourceSlots (sourceSlot c k)).receiving = false →
          (pick s.sourceSlots (sourceSlot c k)).refs = 0 →
          (∀ j : Fin 3, j < k → (pick s.sourceSlots (sourceSlot c j)).receiving = true
            ∨ (pick s.sourceSlots (sourceSlot c j)).refs ≠ 0) →
          exec (.frameStart c packet) s = .next { s with
            sourceSlots := upd s.sourceSlots (sourceSlot c k) fun x => { x with receiving := true }
            ports := upd s.ports c fun p => { p with
              state := .receive ⟨sourceSlot c k, f.header kind, 0, 0⟩ } })
    ∧ ∀ r, (pick s.ports c).state = .receive r → (pick s.ports c).height < 65536 →
      ∃ t, exec (.frameEnd c (3 :: leBytes 2 (pick s.ports c).height)) s = .next t
        ∧ ((pick t.ports c).state = .wait ∨ (pick t.ports c).state = .discard)
        ∧ exec (.frameStart c packet) s = exec (.frameStart c packet) t

/-- Repair of a run of `n` lines from the expected line on (R9, R10). Within the repair limit: each line of the run
becomes a copy of the line above the run, or the black code when the run begins at line 0, each repair is counted,
and the expected line moves past the run. Past the limit: the run stops at the repair that passes it, the slot is
no longer receiving, the port goes to DISCARD, damaged frames counts, CAMERA_DAMAGED is set and its notice raised
with the repair count reached. -/
def Obligations.RepairRun : Prop :=
  ∀ (s : State) (c : Fin 4) (r : Reception) (n : Nat),
    (pick s.ports c).state = .receive r → r.repairs ≤ (pick s.ports c).repairLimit →
    let p := pick s.ports c
    let fill : List Pixel :=
      if r.expected = 0 then List.replicate p.width (BitVec.ofNat 12 (p.black.toNat / 16))
      else readRow s r.slot (r.expected - 1) p.width
    let made := min n (p.repairLimit + 1 - r.repairs)
    let t := repairLines c n s
    (∀ x, findAt x (pick t.sourceSlots r.slot).rows =
        if r.expected ≤ x ∧ x < r.expected + made then some fill
        else findAt x (pick s.sourceSlots r.slot).rows)
    ∧ (pick t.sourceSlots r.slot).refs = (pick s.sourceSlots r.slot).refs
    ∧ (∀ i, i ≠ r.slot → pick t.sourceSlots i = pick s.sourceSlots i)
    ∧ (r.repairs + n ≤ p.repairLimit →
      (pick t.sourceSlots r.slot).receiving = (pick s.sourceSlots r.slot).receiving
      ∧ t = { s with
          sourceSlots := t.sourceSlots
          ports := upd s.ports c fun p => { p with
            state := .receive { r with expected := r.expected + n, repairs := r.repairs + n }
            counters := { p.counters with linesRepaired := Nat.repeat satInc n p.counters.linesRepaired } } })
    ∧ (p.repairLimit < r.repairs + n →
      (pick t.sourceSlots r.slot).receiving = false
      ∧ t = State.raise
          { s with
            sourceSlots := t.sourceSlots
            ports := upd s.ports c fun p => { p with
              state := .discard
              counters := { p.counters with
                linesRepaired := Nat.repeat satInc made p.counters.linesRepaired
                damagedFrames := satInc p.counters.damagedFrames } }
            sticky := withBit s.sticky StickyFlag.cameraDamaged.bit }
          (.cameraDamaged c r.header.copy.sequence (p.repairLimit + 1)))

/-- A Line in RECEIVE (R8, R7): past the last line it is ignored; below the expected line it is a duplicate; good,
it is written at its place after the lines before it have been repaired; bad, it is repaired with them and counted.
A run of repairs that damages the frame leaves the line unwritten. What a run of repairs does is `RepairRun`. -/
def Obligations.LineTaken : Prop :=
  ∀ (s : State) (c : Fin 4) (packet : List Byte) (l : LineFields) (r : Reception),
    parseLine packet = some l → (pick s.ports c).state = .receive r →
    let p := pick s.ports c
    let good := l.crcMatches = true ∧ 2 * l.pixels.length = 3 * p.width
    (p.height ≤ l.number → exec (.line c packet) s = .next s)
    ∧ (l.number < p.height → l.number < r.expected →
      exec (.line c packet) s = .next { s with
        ports := upd s.ports c fun p => { p with
          counters := { p.counters with duplicateLines := satInc p.counters.duplicateLines } } })
    ∧ (l.number < p.height → l.number = r.expected → good →
      exec (.line c packet) s = .next { s with
        sourceSlots := upd s.sourceSlots r.slot fun x => { x with
          rows := putAt l.number (unpackPixels l.pixels) x.rows }
        ports := upd s.ports c fun p => { p with state := .receive { r with expected := r.expected + 1 } } })
    ∧ (l.number < p.height → r.expected < l.number → good →
      ∃ t, t = repairLines c (l.number - r.expected) s ∧
        exec (.line c packet) s = .next
          (if r.repairs + (l.number - r.expected) ≤ p.repairLimit then
            { t with
              sourceSlots := upd t.sourceSlots r.slot fun x => { x with
                rows := putAt l.number (unpackPixels l.pixels) x.rows }
              ports := upd t.ports c fun p => { p with
                state := .receive { r with
                  expected := l.number + 1, repairs := r.repairs + (l.number - r.expected) } } }
          else t))
    ∧ (l.number < p.height → r.expected ≤ l.number → ¬ good →
      ∃ t, t = repairLines c (l.number + 1 - r.expected) s ∧
        exec (.line c packet) s = .next { t with
          ports := upd t.ports c fun p => { p with
            counters := { p.counters with badLines := satInc p.counters.badLines } } })

/-- A Frame End in RECEIVE (R11) and posting (R12, R13, R16, R67, R81). The tail is repaired, and a frame that
survives is posted: the port goes to WAIT, the sequence check is made, a tracked DARK frame moves the black level,
and the views that admit the frame get a job each in ascending number while the queue has room, the others a
queue-full skip; the slot is then no longer receiving. -/
def Obligations.FrameEndPosts : Prop :=
  ∀ (s : State) (c : Fin 4) (packet : List Byte) (sent : Nat) (r : Reception),
    parseFrameEnd packet = some sent → (pick s.ports c).state = .receive r →
    let p := pick s.ports c
    let admitting := (List.finRange 16).filter fun v =>
      let w := pick s.views v
      w.state == .active && w.params.camera == c && w.params.levelMask.getLsbD r.header.copy.level.val
        && w.params.kindMask.getLsbD r.header.copy.kind.bit
    let made := admitting.take (32 - s.jobs.length)
    let skipped := admitting.drop (32 - s.jobs.length)
    (r.expected < p.height → r.repairs ≤ p.repairLimit →
      p.repairLimit < r.repairs + (p.height - r.expected) →
      exec (.frameEnd c packet) s = .next (repairLines c (p.height - r.expected)
        (if sent = p.height then s else
          { s with ports := upd s.ports c fun p => { p with
              counters := { p.counters with endMismatches := satInc p.counters.endMismatches } } })))
    ∧ (r.expected < p.height → r.repairs + (p.height - r.expected) ≤ p.repairLimit →
      ∃ t, exec (.frameEnd c packet) s = exec (.frameEnd c packet) t
        ∧ t = repairLines c (p.height - r.expected) s)
    ∧ (p.height ≤ r.expected →
      ∃ t, exec (.frameEnd c packet) s = .next t
        ∧ pick t.ports c = { p with
            state := .wait
            lastSequence := some r.header.copy.sequence
            black :=
              if r.header.copy.kind = .dark ∧ p.darkTracking = true then
                let count := p.window.w * p.window.h
                let mean := (16 * darkSum s r.slot p.window + count / 2) / count
                BitVec.ofInt 16 (max 0 (min 65535
                  ((p.black.toNat : Int) + ((mean : Int) - p.black.toNat + 4).fdiv 8)))
              else p.black
            counters := { p.counters with
              framesPosted := satInc p.counters.framesPosted
              endMismatches := if sent = p.height then p.counters.endMismatches
                else satInc p.counters.endMismatches
              sequenceGaps :=
                if ∃ q ∈ p.lastSequence, r.header.copy.sequence ≠ q + 1 then satInc p.counters.sequenceGaps
                else p.counters.sequenceGaps } }
        ∧ (∀ d, d ≠ c → pick t.ports d = pick s.ports d)
        ∧ t.jobs = s.jobs ++ made.map (fun v => ⟨r.slot, c, v, r.header.copy, r.repairs⟩)
        ∧ (∀ v, pick t.views v =
            let w := pick s.views v
            if v ∈ made then { w with counters := { w.counters with admitted := satInc w.counters.admitted } }
            else if v ∈ skipped then
              { w with counters := { w.counters with queueFullSkips := satInc w.counters.queueFullSkips } }
            else w)
        ∧ (∀ i, pick t.sourceSlots i =
            let x := pick s.sourceSlots i
            if i = r.slot then { x with receiving := false, refs := x.refs + made.length } else x)
        ∧ t = { s with ports := t.ports, jobs := t.jobs, views := t.views, sourceSlots := t.sourceSlots })

/-- Set Camera (R1): refused BAD_PARAM out of range, then BUSY while the port is not OFF or a slot of the camera is
referenced; otherwise it writes the eight fields and nothing else. -/
def Obligations.SetCameraWrites : Prop :=
  ∀ (s : State) (p : Packet) (rest : List Packet) (camera w h limit x0 y0 dw dh : Nat) (tracking : Bool),
    Started .setCamera p rest s → Ready s →
    camera < 256 → w < 65536 → h < 65536 → limit < 256 → x0 < 65536 → y0 < 65536 → dw < 65536 → dh < 65536 →
    p.payload = leBytes 1 camera ++ leBytes 2 w ++ leBytes 2 h ++ leBytes 1 limit ++ [flagByte tracking]
      ++ leBytes 2 x0 ++ leBytes 2 y0 ++ leBytes 2 dw ++ leBytes 2 dh →
    let inRange := camera < 4 ∧ 64 ≤ w ∧ w ≤ 2048 ∧ w % 16 = 0 ∧ 16 ≤ h ∧ h ≤ 1536 ∧ limit ≤ 15
      ∧ (tracking = true → x0 % 16 = 0 ∧ y0 % 16 = 0 ∧ dw % 16 = 0 ∧ dh % 16 = 0 ∧ dw ≠ 0 ∧ dh ≠ 0
        ∧ x0 + dw ≤ w ∧ y0 + dh ≤ h)
    (¬ inRange → exec .setCamera s = .next (s.answered p rest .badParam []))
    ∧ ∀ c : Fin 4, c.val = camera → inRange →
      ((pick s.ports c).state ≠ .off ∨ (∃ k, (pick s.sourceSlots (sourceSlot c k)).refs ≠ 0) →
        exec .setCamera s = .next (s.answered p rest .busy []))
      ∧ ((pick s.ports c).state = .off → (∀ k, (pick s.sourceSlots (sourceSlot c k)).refs = 0) →
        exec .setCamera s = .next { s.answered p rest .ok [] with
          ports := upd s.ports c fun q => { q with
            width := w, height := h, repairLimit := limit, darkTracking := tracking
            window := ⟨x0, y0, dw, dh⟩ } })

/-- Camera Enable (R2), by port state, and Set Black Level (R17), in any port state. -/
def Obligations.CameraEnableAndBlackLevel : Prop :=
  ∀ (s : State) (p : Packet) (rest : List Packet), Ready s →
    (∀ (camera : Nat) (on : Bool), Started .cameraEnable p rest s → camera < 256 →
      p.payload = leBytes 1 camera ++ [flagByte on] →
      (4 ≤ camera → exec .cameraEnable s = .next (s.answered p rest .badParam []))
      ∧ ∀ c : Fin 4, c.val = camera →
        exec .cameraEnable s = .next
          (match on, (pick s.ports c).state with
          | true, .off =>
            if (pick s.ports c).width = 0 then s.answered p rest .badParam []
            else { s.answered p rest .ok [] with
              ports := upd s.ports c fun q => { q with state := .wait, lastSequence := none } }
          | true, .wait => s.answered p rest .ok []
          | true, .receive _ => s.answered p rest .ok []
          | true, .discard => s.answered p rest .ok []
          | false, .off => s.answered p rest .ok []
          | false, .wait => { s.answered p rest .ok [] with
              ports := upd s.ports c fun q => { q with state := .off } }
          | false, .discard => { s.answered p rest .ok [] with
              ports := upd s.ports c fun q => { q with state := .off } }
          | false, .receive r => { s.answered p rest .ok [] with
              ports := upd s.ports c fun q => { q with state := .off }
              sourceSlots := upd s.sourceSlots r.slot fun x => { x with receiving := false } }))
    ∧ ∀ (camera : Nat) (level : Half), Started .setBlackLevel p rest s → camera < 256 →
      p.payload = leBytes 1 camera ++ leBytes 2 level.toNat →
      (4 ≤ camera → exec .setBlackLevel s = .next (s.answered p rest .badParam []))
      ∧ ∀ c : Fin 4, c.val = camera →
        exec .setBlackLevel s = .next { s.answered p rest .ok [] with
          ports := upd s.ports c fun q => { q with black := level } }

/-! ### Descriptors and the protection window -/

/-- Write Descriptor (R23, R22): its refusals in their order, and the write, which keeps the lock state and clears
the accessed flag. The codes of the type byte are log 11; they enter through `tableType?` only. -/
def Obligations.WriteDescriptorWrites : Prop :=
  ∀ (s : State) (p : Packet) (rest : List Packet) (n base limit gb tb pb : Nat),
    Started .writeDescriptor p rest s → Ready s →
    n < 256 → base < 4294967296 → limit < 65536 → gb < 256 → tb < 256 → pb < 256 →
    p.payload = leBytes 1 n ++ leBytes 4 base ++ leBytes 2 limit ++ leBytes 1 gb ++ leBytes 1 tb
      ++ leBytes 1 pb →
    ((n = 0 ∨ 63 < n ∨ 4095 < limit ∨ granularity? gb = none ∨ tableType? tb = none ∨ 1 < pb) →
      exec .writeDescriptor s = .next (s.answered p rest .badParam []))
    ∧ ∀ (d : Fin 64) (g : Granularity) (ty : TableType) (present : Bool), d.val = n → d ≠ 0 → limit ≤ 4095 →
      granularity? gb = some g → tableType? tb = some ty → pb = (if present then 1 else 0) →
      let span := match g with
        | .word => limit + 1
        | .block64 => (limit + 1) * 64
      ((pick s.descriptors d).lock ≠ .unlocked →
        exec .writeDescriptor s = .next (s.answered p rest .descLocked []))
      ∧ ((pick s.descriptors d).lock = .unlocked → (base % 64 ≠ 0 ∨ 131072 < base + span) →
        exec .writeDescriptor s = .next (s.answered p rest .descRange []))
      ∧ ((pick s.descriptors d).lock = .unlocked → base % 64 = 0 → base + span ≤ 131072 →
        exec .writeDescriptor s = .next { s.answered p rest .ok [] with
          descriptors := upd s.descriptors d fun x =>
            { x with
              base := base, limit := limit, granularity := g, type := ty, present := present
              accessed := false } })

/-- Read Descriptor (R24) and Clear-Accessed Descriptor (R25): the response carries the values as they stood
before the clear. The order and widths of the data are the model's reading (log 12), and so is descriptor 0's flag in
bit 0 of the first byte (log 31). -/
def Obligations.AccessedFlagsRead : Prop :=
  ∀ (s : State) (p : Packet) (rest : List Packet), s.starting = false →
    (∀ (n : Nat) (clear : Bool), Started .readDescriptor p rest s → n < 256 →
      p.payload = leBytes 1 n ++ [flagByte clear] →
      (63 < n → exec .readDescriptor s = .next (s.answered p rest .badParam []))
      ∧ ∀ d : Fin 64, d.val = n →
        let x := pick s.descriptors d
        exec .readDescriptor s = .next { s.answered p rest .ok
            (leBytes 4 x.base ++ leBytes 2 x.limit ++ [x.granularity.code, x.type.code, flagByte x.present,
              flagByte x.accessed, x.lock.code] ++ leBytes 4 x.span) with
          descriptors := if clear then upd s.descriptors d fun y => { y with accessed := false }
            else s.descriptors })
    ∧ ∀ set : Nat, Started .clearAccessedDescriptor p rest s → s.noPatchLoad → set < 2 ^ 64 →
      p.payload = leBytes 8 set →
      ∃ flags t, exec .clearAccessedDescriptor s = .next t
        ∧ flags < 2 ^ 64 ∧ (∀ d : Fin 64, flags.testBit d.val = (pick s.descriptors d).accessed)
        ∧ (∀ d : Fin 64, pick t.descriptors d = { pick s.descriptors d with
            accessed := (pick s.descriptors d).accessed && !set.testBit d.val })
        ∧ t = { s.answered p rest .ok (leBytes 8 flags) with descriptors := t.descriptors }

/-- Lock Descriptor (R27), Unlock Descriptor (R28) and the effect of Lock Down Descriptor (R29): descriptors 1 to
63 only; an accepted command answers the lock state after it and changes nothing else. -/
def Obligations.LockCommands : Prop :=
  ∀ (s : State) (p : Packet) (rest : List Packet) (n : Nat), Ready s → n < 256 → p.payload = leBytes 1 n →
    ((n = 0 ∨ 63 < n) →
      (Started .lockDescriptor p rest s →
        exec .lockDescriptor s = .next (s.answered p rest .badParam []))
      ∧ (Started .unlockDescriptor p rest s →
        exec .unlockDescriptor s = .next (s.answered p rest .badParam []))
      ∧ (Started .lockDownDescriptor p rest s →
        exec .lockDownDescriptor s = .next (s.answered p rest .badParam [])))
    ∧ ∀ d : Fin 64, d.val = n → d ≠ 0 →
      (Started .lockDescriptor p rest s →
        exec .lockDescriptor s = .next (match (pick s.descriptors d).lock with
          | .lockedDown => s.answered p rest .ok [LockState.lockedDown.code]
          | .unlocked => { s.answered p rest .ok [LockState.locked.code] with
              descriptors := upd s.descriptors d fun x => { x with lock := .locked } }
          | .locked => s.answered p rest .ok [LockState.locked.code]))
      ∧ (Started .unlockDescriptor p rest s →
        exec .unlockDescriptor s = .next (match (pick s.descriptors d).lock with
          | .lockedDown => s.answered p rest .descLocked []
          | .locked => { s.answered p rest .ok [LockState.unlocked.code] with
              descriptors := upd s.descriptors d fun x => { x with lock := .unlocked } }
          | .unlocked => s.answered p rest .ok [LockState.unlocked.code]))
      ∧ (Started .lockDownDescriptor p rest s →
        exec .lockDownDescriptor s = .next { s.answered p rest .ok [LockState.lockedDown.code] with
          descriptors := upd s.descriptors d fun x => { x with lock := .lockedDown } })

/-- What only power-on reset undoes (R29, R39): whatever the row, a LOCKED_DOWN descriptor keeps its state and
every field but the accessed flag, and the protection window keeps its fields while the lock is set. -/
def Obligations.LocksKept : Prop :=
  ∀ (i : Instr) (s t : State), (∀ strap, i ≠ .powerOnReset strap) → exec i s = .next t →
    (∀ d, (pick s.descriptors d).lock = .lockedDown →
      pick t.descriptors d = { pick s.descriptors d with accessed := (pick t.descriptors d).accessed })
    ∧ (s.window.locked = true → t.window = s.window)

/-- Set Protection Window (R38) and Protection Lock (R39). The codes of side and complement are R171's. -/
def Obligations.ProtectionWindowSet : Prop :=
  ∀ (s : State) (p : Packet) (rest : List Packet), Ready s →
    (∀ (size side complement : Nat), Started .setProtectionWindow p rest s →
      size < 256 → side < 256 → complement < 256 →
      p.payload = leBytes 1 size ++ leBytes 1 side ++ leBytes 1 complement →
      ((7 < size ∨ 1 < side ∨ 1 < complement) →
        exec .setProtectionWindow s = .next (s.answered p rest .badParam []))
      ∧ ∀ (z : Fin 8), z.val = size → side ≤ 1 → complement ≤ 1 →
        let new : ProtectionWindow :=
          ⟨z, if side = 0 then .bottom else .top, complement = 1, s.window.locked⟩
        (s.window.locked = true → exec .setProtectionWindow s = .next (s.answered p rest .protectedWords []))
        ∧ (s.window.locked = false →
          (∃ r ∈ s.reservation, r.first + r.count ≤ 131072
            ∧ ∃ a, r.first ≤ a ∧ a < r.first + r.count ∧ new.protects a = true) →
          exec .setProtectionWindow s = .next (s.answered p rest .busy []))
        ∧ (s.window.locked = false →
          (∀ r ∈ s.reservation, r.first + r.count ≤ 131072
            ∧ ∀ a, r.first ≤ a → a < r.first + r.count → new.protects a = false) →
          exec .setProtectionWindow s = .next { s.answered p rest .ok [] with window := new }))
    ∧ (Started .protectionLock p rest s → p.payload = [] →
      exec .protectionLock s = .next { s.answered p rest .ok [] with
        window := { s.window with locked := true } })

/-- The protected set (R37): a word is protected when it lies in the sized range, or outside it with complement
set; and a load or stream target is refused exactly when one of its words is protected. -/
def Obligations.ProtectedSet : Prop :=
  (∀ (w : ProtectionWindow) (a : Nat),
    let z := if w.size.val = 0 then 0 else 2 ^ (10 + w.size.val)
    let sized := match w.side with
      | .bottom => a < z
      | .top => 131072 - z ≤ a ∧ a < 131072
    w.protects a = true ↔ a < 131072 ∧ (if w.complement then ¬ sized else sized))
  ∧ ∀ (w : ProtectionWindow) (t : Span), t.first + t.count ≤ 131072 →
    (w.touches t = true ↔ ∃ a, t.first ≤ a ∧ a < t.first + t.count ∧ w.protects a = true)

/-! ### Loads and streams -/

/-- Load Open (R45): SEQUENCE in LOADING, BUSY in STREAMING, its own refusals in their order, and the load
opened. The base and span are the descriptor's as they stand. -/
def Obligations.LoadOpened : Prop :=
  ∀ (s : State) (p : Packet) (rest : List Packet) (n offset count : Nat),
    Started .loadOpen p rest s → s.starting = false → n < 256 → offset < 4294967296 → count < 65536 →
    p.payload = leBytes 1 n ++ leBytes 4 offset ++ leBytes 2 count →
    (∀ d t b, s.loadUnit = .loading d t b →
      exec .loadOpen s = .next { s.answered p rest .sequence [] with
        loadUnit := .idle, sticky := withBit s.sticky StickyFlag.loadSequence.bit })
    ∧ (∀ d t k, s.loadUnit = .streaming d t k → exec .loadOpen s = .next (s.answered p rest .busy []))
    ∧ (s.loadUnit = .idle →
      ((n = 0 ∨ 63 < n ∨ (∃ d : Fin 64, d.val = n ∧ (pick s.descriptors d).type = .untyped) ∨ count < 1
          ∨ 256 < count) →
        exec .loadOpen s = .next (s.answered p rest .badParam []))
      ∧ ∀ d : Fin 64, d.val = n → d ≠ 0 → (pick s.descriptors d).type ≠ .untyped → 1 ≤ count → count ≤ 256 →
        let x := pick s.descriptors d
        (x.lock ≠ .unlocked → exec .loadOpen s = .next (s.answered p rest .descLocked []))
        ∧ (x.lock = .unlocked → x.span < offset + count →
          exec .loadOpen s = .next (s.answered p rest .limit []))
        ∧ (x.lock = .unlocked → offset + count ≤ x.span →
          exec .loadOpen s = .next
            { s.answered p rest .ok (leBytes 4 (x.base + offset) ++ leBytes 2 count) with
              loadUnit := .loading d ⟨x.base + offset, count⟩ [] }))

/-- Load Data (R46): in LOADING the words join the buffer in order, a payload that is empty or no whole number of
words is refused BAD_LENGTH with the load left open, and words past the count cancel the load (R44); with no load
open it is refused SEQUENCE and LOAD_SEQUENCE is set. More than 256 words: `LoadsCancelled` (log 10). -/
def Obligations.LoadDataAppends : Prop :=
  ∀ (s : State) (p : Packet) (rest : List Packet), Started .loadData p rest s → s.starting = false →
    (∀ d target buffer, s.loadUnit = .loading d target buffer →
      ((p.payload = [] ∨ p.payload.length % 4 ≠ 0) →
        exec .loadData s = .next (s.answered p rest .badLength []))
      ∧ ∀ ws : List Word, p.payload = ws.flatMap (fun w => leBytes 4 w.toNat) → ws ≠ [] → ws.length ≤ 256 →
        (target.count < buffer.length + ws.length →
          exec .loadData s = .next { s.answered p rest .sequence [] with
            loadUnit := .idle, sticky := withBit s.sticky StickyFlag.loadSequence.bit })
        ∧ (buffer.length + ws.length ≤ target.count →
          exec .loadData s = .next
            { s.answered p rest .ok (leBytes 2 (buffer.length + ws.length)) with
              loadUnit := .loading d target (buffer ++ ws) }))
    ∧ (s.noPatchLoad →
      exec .loadData s = .next { s.answered p rest .sequence [] with
        sticky := withBit s.sticky StickyFlag.loadSequence.bit })

/-- Load Commit (R47, R48): short, it cancels the load; with a protected word it is refused PROTECTED, the load is
cancelled and LOAD_REFUSED set; with a pinned word it is refused REGION_PINNED and the load stays open; otherwise
buffer word m goes to word first + m, every other word stands, and the unit is IDLE. With no load open it is
refused SEQUENCE. The store is in its one form, which every step keeps (MemoryAndQueuesKept). -/
def Obligations.LoadCommitWrites : Prop :=
  ∀ (s : State) (p : Packet) (rest : List Packet), Started .loadCommit p rest s → s.starting = false →
    p.payload = [] →
    (s.noPatchLoad →
      exec .loadCommit s = .next { s.answered p rest .sequence [] with
        sticky := withBit s.sticky StickyFlag.loadSequence.bit })
    ∧ ∀ d target buffer, s.loadUnit = .loading d target buffer → target.first + target.count ≤ 131072 →
      storeCanonical s.tableStore = true →
      let guarded := ∃ a, target.first ≤ a ∧ a < target.first + target.count ∧ s.window.protects a = true
      let pinned := ∃ a, target.first ≤ a ∧ a < target.first + target.count
        ∧ ∃ x ∈ s.pins, x.first ≤ a ∧ a < x.first + x.count
      (buffer.length < target.count →
        exec .loadCommit s = .next { s.answered p rest .incomplete [] with
          loadUnit := .idle, sticky := withBit s.sticky StickyFlag.loadSequence.bit })
      ∧ (buffer.length = target.count → guarded →
        exec .loadCommit s = .next { s.answered p rest .protectedWords [] with
          loadUnit := .idle, sticky := withBit s.sticky StickyFlag.loadRefused.bit })
      ∧ (buffer.length = target.count → ¬ guarded → pinned →
        exec .loadCommit s = .next (s.answered p rest .regionPinned []))
      ∧ (buffer.length = target.count → ¬ guarded → ¬ pinned →
        ∃ t, exec .loadCommit s = .next t
          ∧ (∀ a, storeRead t.tableStore a =
              if target.first ≤ a ∧ a < target.first + target.count then buffer.getD (a - target.first) 0
              else storeRead s.tableStore a)
          ∧ t = { s.answered p rest .ok (leBytes 4 target.first ++ leBytes 2 target.count) with
              tableStore := t.tableStore, loadUnit := .idle })

/-- Load Cancel (R49) and Stream Cancel (R54), which write no Table Store word and set no flag. A Stream Cancel in
LOADING is in `PatchLoadCancelled`; the data of a Stream Cancel in IDLE is left open here (log 13). A Load Data of
more than 256 words, which no count admits, cancels the load with SEQUENCE (log 10). -/
def Obligations.LoadsCancelled : Prop :=
  ∀ (s : State) (p : Packet) (rest : List Packet), s.starting = false →
    (Started .loadCancel p rest s → p.payload = [] →
      ((∃ d target buffer, s.loadUnit = .loading d target buffer) →
        exec .loadCancel s = .next { s.answered p rest .ok [] with loadUnit := .idle })
      ∧ (s.noPatchLoad → exec .loadCancel s = .next (s.answered p rest .ok [])))
    ∧ (Started .streamCancel p rest s → p.payload = [] →
      (∀ d target k, s.loadUnit = .streaming d target k →
        ∃ t, exec .streamCancel s = .next t ∧ t.reservation = none ∧ t.wordsStreamed = 0
          ∧ t = { s.answered p rest .ok (leBytes 4 k) with loadUnit := .idle })
      ∧ (s.loadUnit = .idle → ∃ data, exec .streamCancel s = .next (s.answered p rest .ok data)))
    ∧ ∀ d target buffer (ws : List Word), Started .loadData p rest s → s.loadUnit = .loading d target buffer →
      target.count ≤ 256 → p.payload = ws.flatMap (fun w => leBytes 4 w.toNat) → 256 < ws.length →
      exec .loadData s = .next { s.answered p rest .sequence [] with
        loadUnit := .idle, sticky := withBit s.sticky StickyFlag.loadSequence.bit }

/-- Stream Open (R51, R41): SEQUENCE in LOADING, BUSY in STREAMING, its own refusals in their order, and the
stream opened with its reservation over the target words. -/
def Obligations.StreamOpened : Prop :=
  ∀ (s : State) (p : Packet) (rest : List Packet) (n offset total : Nat),
    Started .streamOpen p rest s → s.starting = false → n < 256 → offset < 4294967296 → total < 4294967296 →
    p.payload = leBytes 1 n ++ leBytes 4 offset ++ leBytes 4 total →
    (∀ d t b, s.loadUnit = .loading d t b →
      exec .streamOpen s = .next { s.answered p rest .sequence [] with
        loadUnit := .idle, sticky := withBit s.sticky StickyFlag.loadSequence.bit })
    ∧ (∀ d t k, s.loadUnit = .streaming d t k → exec .streamOpen s = .next (s.answered p rest .busy []))
    ∧ (s.loadUnit = .idle →
      ((n = 0 ∨ 63 < n ∨ (∃ d : Fin 64, d.val = n ∧ (pick s.descriptors d).type = .untyped)
          ∨ offset % 256 ≠ 0 ∨ total < 1 ∨ 131072 < total) →
        exec .streamOpen s = .next (s.answered p rest .badParam []))
      ∧ ∀ d : Fin 64, d.val = n → d ≠ 0 → (pick s.descriptors d).type ≠ .untyped → offset % 256 = 0 →
        1 ≤ total → total ≤ 131072 →
        (pick s.descriptors d).base + (pick s.descriptors d).span ≤ 131072 →
        let x := pick s.descriptors d
        let first := x.base + offset
        let guarded := ∃ a, first ≤ a ∧ a < first + total ∧ s.window.protects a = true
        let pinned := ∃ a, first ≤ a ∧ a < first + total ∧ ∃ y ∈ s.pins, y.first ≤ a ∧ a < y.first + y.count
        (x.lock ≠ .unlocked → exec .streamOpen s = .next (s.answered p rest .descLocked []))
        ∧ (x.lock = .unlocked → x.span < offset + total →
          exec .streamOpen s = .next (s.answered p rest .limit []))
        ∧ (x.lock = .unlocked → offset + total ≤ x.span → guarded →
          exec .streamOpen s = .next { s.answered p rest .protectedWords [] with
            sticky := withBit s.sticky StickyFlag.loadRefused.bit })
        ∧ (x.lock = .unlocked → offset + total ≤ x.span → ¬ guarded → pinned →
          exec .streamOpen s = .next (s.answered p rest .regionPinned []))
        ∧ (x.lock = .unlocked → offset + total ≤ x.span → ¬ guarded → ¬ pinned →
          ∃ t, exec .streamOpen s = .next t ∧ t.reservation = some ⟨first, total⟩ ∧ t.wordsStreamed = 0
            ∧ t = { s.answered p rest .ok
                  (leBytes 4 first ++ leBytes 4 total ++ leBytes 2 ((total + 255) / 256)) with
                loadUnit := .streaming d ⟨first, total⟩ 0 }))

/-- Stream Data (R52, R53). With r words not yet written the packet carries exactly min(256, r) words: another
number, or no whole number of words, is refused BAD_LENGTH with nothing written; packet word m goes to word first +
words streamed + m and every other word stands; the packet that ends the stream releases the reservation and is
answered DONE with the total. With no stream open it is refused SEQUENCE, which in LOADING cancels the load.
The store is in its one form, which every step keeps (MemoryAndQueuesKept). -/
def Obligations.StreamDataWrites : Prop :=
  ∀ (s : State) (p : Packet) (rest : List Packet), Started .streamData p rest s → s.starting = false →
    (∀ d t b, s.loadUnit = .loading d t b →
      exec .streamData s = .next { s.answered p rest .sequence [] with
        loadUnit := .idle, sticky := withBit s.sticky StickyFlag.loadSequence.bit })
    ∧ (s.loadUnit = .idle →
      exec .streamData s = .next { s.answered p rest .sequence [] with
        sticky := withBit s.sticky StickyFlag.loadSequence.bit })
    ∧ ∀ d target streamed, s.loadUnit = .streaming d target streamed →
      target.first + target.count ≤ 131072 → streamed < target.count → storeCanonical s.tableStore = true →
      let r := target.count - streamed
      (p.payload.length ≠ 4 * min 256 r → exec .streamData s = .next (s.answered p rest .badLength []))
      ∧ ∀ ws : List Word, p.payload = ws.flatMap (fun w => leBytes 4 w.toNat) → ws.length = min 256 r →
        ∃ t, exec .streamData s = .next t
          ∧ (∀ a, storeRead t.tableStore a =
              if target.first + streamed ≤ a ∧ a < target.first + streamed + ws.length
              then ws.getD (a - (target.first + streamed)) 0
              else storeRead s.tableStore a)
          ∧ (256 < r → t = { s.answered p rest .ok (leBytes 4 (streamed + 256)) with
              tableStore := t.tableStore, loadUnit := .streaming d target (streamed + 256) })
          ∧ (r ≤ 256 → t.reservation = none ∧ t = { s.answered p rest .done (leBytes 4 target.count) with
              tableStore := t.tableStore, loadUnit := .idle })

/-- Read Table (R56): taken in every load state; its refusals in their order; otherwise the words base + offset on,
in address order, as they stand, and nothing changes. -/
def Obligations.ReadTableReturns : Prop :=
  ∀ (s : State) (p : Packet) (rest : List Packet) (n offset count : Nat),
    Started .readTable p rest s → s.starting = false → n < 256 → offset < 4294967296 → count < 256 →
    p.payload = leBytes 1 n ++ leBytes 4 offset ++ leBytes 1 count →
    ((n = 0 ∨ 63 < n ∨ count < 1 ∨ 64 < count) →
      exec .readTable s = .next (s.answered p rest .badParam []))
    ∧ ∀ d : Fin 64, d.val = n → d ≠ 0 → 1 ≤ count → count ≤ 64 →
      (pick s.descriptors d).base + (pick s.descriptors d).span ≤ 131072 →
      let x := pick s.descriptors d
      (x.span < offset + count → exec .readTable s = .next (s.answered p rest .limit []))
      ∧ (offset + count ≤ x.span →
        exec .readTable s = .next (s.answered p rest .ok
          ((List.range count).flatMap fun m =>
            leBytes 4 (storeRead s.tableStore (x.base + offset + m)).toNat)))

/-! ### Views -/

/-- The range checks of Write View (R61, R171), bullet by bullet over the payload's bytes: a set that fails one is
refused BAD_PARAM and nothing changes, and a set that passes all is not refused BAD_PARAM. The kind mask's
flags are bits 0 to 2 of its byte (log 31). -/
def Obligations.WriteViewRanges : Prop :=
  ∀ (s : State) (p : Packet) (rest : List Packet), Started .writeView p rest s → Ready s →
    p.payload.length = 34 →
    let q := num p.payload
    let level := fun e => q (4 + 2 * e) 1
    let selector := fun e => q (5 + 2 * e) 1
    let scheme := q 26 1
    let length := if scheme = 1 then 1 else if scheme = 2 then 2 else if scheme = 3 then q 27 1 else 0
    let bad := 15 < q 0 1 ∨ 3 < q 1 1 ∨ 7 < q 3 1
      ∨ (∃ e < 4, 7 < level e ∨ 63 < selector e)
      ∨ (∃ e < 4, ∃ f < e, selector e ≠ 0 ∧ selector f ≠ 0 ∧ level e ≤ level f)
      ∨ 63 < q 12 1 ∨ 63 < q 13 1
      ∨ q 14 2 < 64 ∨ 2048 < q 14 2 ∨ q 14 2 % 16 ≠ 0 ∨ q 16 2 < 16 ∨ 2048 < q 16 2
      ∨ 1 < q 18 1 ∨ 1 < q 19 1 ∨ 1023 < q 22 2 ∨ 1 < q 24 1 ∨ 1 < q 25 1 ∨ 3 < scheme
      ∨ (scheme = 3 ∧ q 27 1 ∉ [2, 4, 8, 16])
      ∨ (scheme ≠ 0 ∧ (q 28 1 < 12 ∨ 63 < q 28 1 ∨ 64 < q 28 1 + length))
      ∨ 1 < q 29 1 ∨ 4 < q 30 1
      ∨ (q 30 1 = 2 ∧ (q 31 2 < 2 ∨ 255 < q 31 2)) ∨ (q 30 1 = 3 ∧ q 31 2 < 1)
      ∨ (q 30 1 = 4 ∧ (q 31 2 < 1 ∨ 255 < q 31 2)) ∨ 3 < q 33 1
    (bad → exec .writeView s = .next (s.answered p rest .badParam []))
    ∧ (¬ bad → exec .writeView s ≠ .next (s.answered p rest .badParam []))

/-- An accepted Write View and its state and slot checks (R62, R63, R64), for a parameter set in range as R61 stores
it: VIEW_STATE first, then SLOT_CONFLICT with any other view's range; otherwise every parameter is stored, the
view's state, pointers, last-good record and counters stand, and the forwarding state is reset if the class changed. -/
def Obligations.WriteViewStores : Prop :=
  ∀ (s : State) (p : Packet) (rest : List Packet) (v : Fin 16) (new : ViewParams),
    Started .writeView p rest s → Ready s → viewParamsAt p.payload = some new → p.payload.length = 34 →
    num p.payload 0 1 = v.val →
    let old := (pick s.views v).params
    let restricted := old.camera ≠ new.camera ∨ old.job.width ≠ new.job.width
      ∨ old.job.height ≠ new.job.height ∨ old.job.format ≠ new.job.format ∨ old.job.scheme ≠ new.job.scheme
      ∨ old.job.ringLength ≠ new.job.ringLength ∨ old.job.slotBase ≠ new.job.slotBase
    let wrongState := ((pick s.views v).state ≠ .disabled ∧ restricted)
      ∨ ((pick s.views v).state = .active ∧ new.job.meshSelector = 0)
    let conflict := ∃ u, u ≠ v ∧ ∃ x, new.job.slotBase ≤ x ∧ x < new.job.slotBase + new.job.schemeLength
      ∧ (pick s.views u).params.job.slotBase ≤ x
      ∧ x < (pick s.views u).params.job.slotBase + (pick s.views u).params.job.schemeLength
    (wrongState → exec .writeView s = .next (s.answered p rest .viewState []))
    ∧ (¬ wrongState → conflict → exec .writeView s = .next (s.answered p rest .slotConflict []))
    ∧ (¬ wrongState → ¬ conflict →
      exec .writeView s = .next { s.answered p rest .ok [] with
        views := upd s.views v fun w =>
          if old.forwardClass = new.forwardClass then { w with params := new }
          else { w with params := new, decimation := 0, lastOdometer := none, burst := 0 } })

/-- The payload of a Write View carries the parameters of 4.1 in order (R61, R171): a parameter set in its ranges,
encoded, is the set that is stored, with a ring length given without RING and a slot base given with NONE stored
as 0. The flags of the two masks stand from bit 0 up (log 31). -/
def Obligations.WriteViewEncoding : Prop :=
  ∀ (v : Fin 16) (w : View), ViewFits w → 64 ≤ w.params.job.width → w.params.job.width ≤ 2048 →
    w.params.job.width % 16 = 0 → 16 ≤ w.params.job.height → w.params.job.height ≤ 2048 →
    ascendingLevels (usedEntries w.params.job.gainSet) = true →
    (match w.params.forwardClass with
      | .decimate n => 2 ≤ n ∧ n ≤ 255
      | .spacing d => 1 ≤ d ∧ d ≤ 65535
      | .marker k => 1 ≤ k ∧ k ≤ 255
      | .off => True
      | .every => True) →
    ∀ ring base : Byte,
      let given : ViewParams := { w.params with job := { w.params.job with
        ringLength := if w.params.job.scheme = .ring then w.params.job.ringLength else ring.toNat
        slotBase := if w.params.job.scheme = .unbuffered then base.toNat else w.params.job.slotBase } }
      viewParamsAt (leBytes 1 v.val ++ viewParamBytes given) = some { w.params with job := { w.params.job with
        ringLength := if w.params.job.scheme = .ring then w.params.job.ringLength else 0
        slotBase := if w.params.job.scheme = .unbuffered then 0 else w.params.job.slotBase } }

/-- Read View (R65): in every view state and load state; the parameters as Write View carries them, then the view
state, p, a, the last-good record, the forwarding state, and the view's queued and in-flight jobs. Nothing
changes. The widths are R171's, an absent number is carried as zero (log 12), and
the flags of a mask stand from bit 0 up (log 31). -/
def Obligations.ReadViewReturns : Prop :=
  ∀ (s : State) (p : Packet) (rest : List Packet) (n : Nat), Started .readView p rest s → s.starting = false →
    n < 256 → p.payload = leBytes 1 n →
    (15 < n → exec .readView s = .next (s.answered p rest .badParam []))
    ∧ ∀ v : Fin 16, v.val = n →
      let w := pick s.views v
      exec .readView s = .next (s.answered p rest .ok
        (viewParamBytes w.params ++ [w.state.code] ++ leBytes 1 w.ringPointer ++ leBytes 1 w.doubleIndex.val
          ++ optBytes 4 (w.lastGood.map BitVec.toNat) ++ leBytes 1 w.decimation
          ++ optBytes 4 (w.lastOdometer.map BitVec.toNat) ++ leBytes 1 w.burst
          ++ leBytes 1 (s.jobs.countP fun j => j.view == v)
          ++ [flagByte (decide (∃ f ∈ s.flight, f.job.view = v))]))

/-- View Activate (R68) and View Hold (R69), by view state: an accepted command answers the view state after it;
only the state changes. -/
def Obligations.ActivateAndHold : Prop :=
  ∀ (s : State) (p : Packet) (rest : List Packet) (n : Nat), Ready s → n < 256 → p.payload = leBytes 1 n →
    (15 < n →
      (Started .viewActivate p rest s → exec .viewActivate s = .next (s.answered p rest .badParam []))
      ∧ (Started .viewHold p rest s → exec .viewHold s = .next (s.answered p rest .badParam [])))
    ∧ ∀ v : Fin 16, v.val = n →
      let w := pick s.views v
      let goes : ViewState → State := fun x => { s.answered p rest .ok [x.code] with
        views := upd s.views v fun y => { y with state := x } }
      let refused := s.answered p rest .viewState []
      (Started .viewActivate p rest s →
        exec .viewActivate s = .next (match w.state with
          | .disabled =>
            if w.params.job.scheme = .unbuffered ∨ w.params.job.meshSelector = 0 then refused
            else goes .active
          | .held => if w.params.job.meshSelector = 0 then refused else goes .active
          | .active => s.answered p rest .ok [ViewState.active.code]
          | .draining => refused
          | .closing => refused))
      ∧ (Started .viewHold p rest s →
        exec .viewHold s = .next (match w.state with
          | .active =>
            if (∃ j ∈ s.jobs, j.view = v) ∨ (∃ f ∈ s.flight, f.job.view = v) then goes .draining
            else goes .held
          | .draining => s.answered p rest .ok [ViewState.draining.code]
          | .held => s.answered p rest .ok [ViewState.held.code]
          | .disabled => refused
          | .closing => refused))

/-- View Disable (R70, R73): BAD_PARAM for a view above 15; otherwise the view's queued jobs are removed, their
source references released and counted cancelled; the view goes to CLOSING while its job is in flight, and otherwise
to DISABLED with its pointers and forwarding state reset; the other jobs keep their order. -/
def Obligations.ViewDisabled : Prop :=
  ∀ (s : State) (p : Packet) (rest : List Packet) (n : Nat), Started .viewDisable p rest s → Ready s → n < 256 →
    p.payload = leBytes 1 n →
    (15 < n → exec .viewDisable s = .next (s.answered p rest .badParam []))
    ∧ ∀ v : Fin 16, v.val = n →
      let gone := s.jobs.filter fun j => j.view == v
      let closing := ∃ f ∈ s.flight, f.job.view = v
      ∃ t, exec .viewDisable s = .next t
        ∧ t.jobs = s.jobs.filter (fun j => j.view != v)
        ∧ (∀ i, pick t.sourceSlots i = { pick s.sourceSlots i with
            refs := (pick s.sourceSlots i).refs - gone.countP fun j => j.slot == i })
        ∧ (closing → pick t.views v = { pick s.views v with
            state := .closing
            counters := { (pick s.views v).counters with
              cancelled := Nat.repeat satInc gone.length (pick s.views v).counters.cancelled } })
        ∧ (¬ closing → pick t.views v = { pick s.views v with
            state := .disabled, ringPointer := 0, doubleIndex := 0, decimation := 0, lastOdometer := none
            burst := 0
            counters := { (pick s.views v).counters with
              cancelled := Nat.repeat satInc gone.length (pick s.views v).counters.cancelled } })
        ∧ (∀ u, u ≠ v → pick t.views u = pick s.views u)
        ∧ ∃ st, (st = ViewState.closing ∨ st = .disabled) ∧ (pick t.views v).state = st
          ∧ t = { s.answered p rest .ok [st.code] with
              jobs := t.jobs, sourceSlots := t.sourceSlots, views := t.views }

/-! ### The Conditioning Engine -/

/-- A start that ends in itself (R84, R89): at a held slot the record is SKIPPED with SLOT_HELD and nothing is
latched; with a failed mesh the record is FAULT with every flag gathered, the selected descriptors are marked
accessed, VIEW_FAULT is set and its notice raised, and no pin is left. Either way the source reference is released
and a view left without a job leaves its waiting state (R71). -/
def Obligations.JobStartEnds : Prop :=
  ∀ (s : State) (j : Job) (rest : List Job) (x : Fin 52),
    Startable j rest s → (pick s.views j.view).writesNext x →
    let p := (pick s.views j.view).params.job
    let port := pick s.ports j.camera
    let l := latchTables s p j.header.level
    let r := newRecord s j
    let last := rest.all fun k => k.view != j.view
    let sources := upd s.sourceSlots j.slot fun y => { y with refs := y.refs - 1 }
    ((pick s.outputSlots x).held = true →
      exec .jobStart s = .next { s.started rest { r with
            status := .skipped, flags := joinFlag r.flags .slotHeld, tagFinal := some s.timeTag } with
          sourceSlots := sources
          views := upd s.views j.view fun w =>
            let u := { w with counters := { w.counters with slotHeldSkips := satInc w.counters.slotHeldSkips } }
            if last then u.leaveWaiting else u })
    ∧ ((pick s.outputSlots x).held = false → ∀ failure, l.meshFailure = some failure →
      let u := s.started rest { r with
        status := .fault, flags := joinFlags r.flags (l.flags port.width port.height)
        tagFinal := some s.timeTag }
      exec .jobStart s = .next
        { State.raise { u with sticky := withBit u.sticky StickyFlag.viewFault.bit }
            (.viewFault j.view s.nextRecord failure) with
          sourceSlots := sources
          descriptors := s.accessedBy l.selectors
          views := upd s.views j.view fun w =>
            let u := { w with counters := { w.counters with faulted := satInc w.counters.faulted } }
            if last then u.leaveWaiting else u })

/-- A start that runs (R83, R85 to R88, R90, R112, R115, R124, R129): the record is made as R83 gives it and holds
the flags of validation and EXPOSURE_CLAMPED with the slot and its new generation; the usable tables are pinned;
and the job is in flight with what it latched and its tallies at 0. The view is unchanged. -/
def Obligations.JobStartRuns : Prop :=
  ∀ (s : State) (j : Job) (rest : List Job) (x : Fin 52) (mt : TableLatch) (m : Mesh),
    Startable j rest s → (pick s.views j.view).writesNext x → (pick s.outputSlots x).held = false →
    let p := (pick s.views j.view).params.job
    let port := pick s.ports j.camera
    let l := latchTables s p j.header.level
    let scale := exposureScale p.referenceExposure.toNat j.header.exposure.toNat
    let flags := joinFlags (if 0 < j.repairs then withBit 0 RecordFlag.sourceRepaired.bit else 0)
      (l.flags port.width port.height)
    l.mesh = some mt → meshOf mt = some m →
    exec .jobStart s = .next { s.started rest
          { number := s.nextRecord
            view := j.view
            camera := j.camera
            sequence := j.header.sequence
            odometer := j.header.odometer
            marker := j.header.marker
            level := j.header.level
            exposure := j.header.exposure
            repairs := j.repairs
            tagStart := s.timeTag
            status := .inProgress
            flags := if scale.2 then joinFlag flags .exposureClamped else flags
            tagFinal := none
            mark := some ⟨x, (pick s.outputSlots x).generation + 1⟩
            statistics := none
            histogram := none } with
        outputSlots := upd s.outputSlots x fun y => { y with generation := y.generation + 1 }
        descriptors := s.accessedBy l.selectors
        pins := s.pins ++ l.pins
        flight := some
          { job := j
            record := s.nextRecord
            slot := x
            params := p
            black := port.black
            width := port.width
            height := port.height
            gains := l.gains
            meshTable := mt
            toneTable := l.tone
            mesh := m
            gainMode := gainModeOf j.header.level l.gains
            exposureScale := scale.1
            toneMode := toneModeOf l.tone
            tallies := ⟨0, 0, 0, 0, if p.histogram then some (Vector.replicate 16 0) else none⟩
            produced := 0 } }

/-- Validation of a latched table (R34, R35, R36), check by check over the header word's bits (R176) with the
ranges of R31 to R33 and the sizes of 2.4; and what a job's latched tables give it (R86, R87): each selected table
latched with its descriptor, the failure flag of each failed one, GAIN_COVERAGE, and a pin for each usable one. -/
def Obligations.TablesValidated : Prop :=
  (∀ (s : State) (d : Descriptor) (ow oh : Nat),
    let w := (storeRead s.tableStore d.base).toNat
    let field := fun lo len => w / 2 ^ lo % 2 ^ len
    let reserved := ∃ t ∈ s.reservation, ∃ a, t.first ≤ a ∧ a < t.first + t.count
      ∧ d.base ≤ a ∧ a < d.base + d.span
    (∀ role, d.present = false → validate s role ow oh d = .failed .absent)
    ∧ (∀ role, d.present = true → reserved → validate s role ow oh d = .failed .loading)
    ∧ (d.present = true → ¬ reserved →
      validate s .gain ow oh d =
        (if d.type = .gain ∧ field 0 8 = 1 ∧ 2 ≤ field 8 7 ∧ field 8 7 ≤ 65 ∧ 2 ≤ field 15 7
            ∧ field 15 7 ≤ 65 ∧ 3 ≤ field 22 4 ∧ field 22 4 ≤ 8
            ∧ 1 + (field 8 7 * field 15 7 + 1) / 2 ≤ d.span
        then .usable (.gain (field 8 7) (field 15 7) (field 22 4)) else .failed .format)
      ∧ validate s .mesh ow oh d =
        (if d.type = .mesh ∧ field 0 8 = 2 ∧ 2 ≤ field 8 8 ∧ field 8 8 ≤ 129 ∧ 2 ≤ field 16 8
            ∧ field 16 8 ≤ 129 ∧ 2 ≤ field 24 3 ∧ field 24 3 ≤ 6
            ∧ 1 + field 8 8 * field 16 8 ≤ d.span
            ∧ (ow - 1) / 2 ^ field 24 3 ≤ field 8 8 - 2 ∧ (oh - 1) / 2 ^ field 24 3 ≤ field 16 8 - 2
        then .usable (.mesh (field 8 8) (field 16 8) (field 24 3)) else .failed .format)
      ∧ validate s .tone ow oh d =
        (if d.type = .tone ∧ field 0 8 = 3 ∧ field 8 9 = 257 ∧ 130 ≤ d.span
        then .usable (.tone 257) else .failed .format)))
  ∧ ∀ (s : State) (p : JobParams) (level : Fin 8) (width height : Nat),
    let l := latchTables s p level
    let latch := fun role (n : Fin 64) =>
      TableLatch.mk n (pick s.descriptors n) (validate s role p.width p.height (pick s.descriptors n))
    let set := joinFlags 0 (l.flags width height)
    l.gains = (selectGains level (usedEntries p.gainSet)).map
        (fun e => ⟨e.level, latch .gain e.selector⟩)
    ∧ l.mesh = (if p.meshSelector = 0 then none else some (latch .mesh p.meshSelector))
    ∧ l.tone = (if p.toneSelector = 0 then none else some (latch .tone p.toneSelector))
    ∧ (∀ n, n ∈ l.selectors ↔ (∃ g ∈ l.gains, g.table.selector = n)
        ∨ (n ≠ 0 ∧ (n = p.meshSelector ∨ n = p.toneSelector)))
    ∧ (∀ x, hasFlag set (failureFlag .gain x) = true ↔ ∃ g ∈ l.gains, g.table.outcome = .failed x)
    ∧ (∀ x, hasFlag set (failureFlag .mesh x) = true ↔
        (p.meshSelector = 0 ∧ x = .absent) ∨ ∃ t, l.mesh = some t ∧ t.outcome = .failed x)
    ∧ (∀ x, hasFlag set (failureFlag .tone x) = true ↔ ∃ t, l.tone = some t ∧ t.outcome = .failed x)
    ∧ (hasFlag set .gainCoverage = true ↔
        ∃ g ∈ l.gains, ∃ gw gh cw, g.table.outcome = .usable (.gain gw gh cw)
          ∧ ((gw - 1) * 2 ^ cw < width - 1 ∨ (gh - 1) * 2 ^ cw < height - 1))
    ∧ ∀ y, y ∈ l.pins ↔
        ∃ t : TableLatch, ((∃ g ∈ l.gains, g.table = t) ∨ l.mesh = some t ∨ l.tone = some t)
          ∧ (∃ h, t.outcome = .usable h) ∧ y = ⟨t.descriptor.base, t.descriptor.span⟩

/-- The gain surfaces of a job (R86): the table of selection over the used entries in ascending level; then the
gain mode (R113, R88) and the blend weight (R114), with the weight between the levels in 1 to 255. -/
def Obligations.GainSelected : Prop :=
  (∀ (level : Fin 8) (es : List GainEntry), ascendingLevels es = true →
    (es = [] → selectGains level es = [])
    ∧ (∀ a, es.head? = some a → level ≤ a.level → selectGains level es = [a])
    ∧ (∀ z, es.getLast? = some z → z.level ≤ level → selectGains level es = [z])
    ∧ (∀ m ∈ es, m.level = level → selectGains level es = [m])
    ∧ ∀ before a b after, es = before ++ a :: b :: after → a.level < level → level < b.level →
      selectGains level es = [a, b])
  ∧ ∀ (level : Fin 8) (a b : GainLatch),
    gainModeOf level [] = .unity
    ∧ (∀ t, surfaceOf a.table = some t → gainModeOf level [a] = .single t)
    ∧ (surfaceOf a.table = none → gainModeOf level [a] = .unity)
    ∧ (∀ t u, surfaceOf a.table = some t → surfaceOf b.table = some u → a.level < level → level < b.level →
      ∃ w, gainModeOf level [a, b] = .blend t u w ∧ 1 ≤ w ∧ w ≤ 255
        ∧ w * (b.level.val - a.level.val) ≤ (level.val - a.level.val) * 256
        ∧ (level.val - a.level.val) * 256 < (w + 1) * (b.level.val - a.level.val))
    ∧ (∀ t, surfaceOf a.table = some t → surfaceOf b.table = none → gainModeOf level [a, b] = .single t)
    ∧ (∀ u, surfaceOf a.table = none → surfaceOf b.table = some u → gainModeOf level [a, b] = .single u)
    ∧ (surfaceOf a.table = none → surfaceOf b.table = none → gainModeOf level [a, b] = .unity)

/-- One output pixel (R92, R107, R122): the next pixel in raster order is conditioned, its code is written at its
cell of the write slot and no other cell changes, its flag joins the record, and it is tallied. -/
def Obligations.OutputPixelWritten : Prop :=
  ∀ (s : State) (f : Flight), s.flight = some f → f.produced < f.params.width * f.params.height →
    let u := f.produced % f.params.width
    let v := f.produced / f.params.width
    let result := conditionPixel s.tableStore (fun x y => (readPixel s f.job.slot x y).toNat) f u v
    ∃ t, exec .outputPixel s = .next t
      ∧ v * f.params.width + u = f.produced ∧ u < f.params.width ∧ v < f.params.height
      ∧ readCell t f.slot (v * f.params.width + u) = BitVec.ofNat 16 result.code
      ∧ (∀ x c, (x ≠ f.slot ∨ c ≠ f.produced) → readCell t x c = readCell s x c)
      ∧ (∀ x, (pick t.outputSlots x).generation = (pick s.outputSlots x).generation
        ∧ (pick t.outputSlots x).held = (pick s.outputSlots x).held)
      ∧ t.records = s.records.map (fun r =>
          if r.number = f.record then
            { r with flags := match result with
              | .filled _ => withBit r.flags RecordFlag.outOfField.bit
              | .conditioned _ true => withBit r.flags RecordFlag.saturated.bit
              | .conditioned _ false => r.flags }
          else r)
      ∧ t = { s with
          outputSlots := t.outputSlots, records := t.records
          flight := some { f with
            produced := f.produced + 1, tallies := tally f.params.format result f.tallies } }

/-- The end of a job (R94, R93, R132): the record finalised with its statistics and, when kept, its bins; pins,
write slot and source reference released; the buffer advanced, selection run, last-good set; the view without a job
leaves its waiting state. The engine's next start is part of the same event (log 3): what it does is JOB_START's.
Events out of turn change nothing (log 4). -/
def Obligations.JobEnds : Prop :=
  (∀ (s : State) (f : Flight) (r : Record), s.flight = some f →
    f.params.width * f.params.height ≤ f.produced → s.findRecord f.record = some r →
    let degraded := [RecordFlag.sourceRepaired, .gainAbsent, .gainLoading, .gainFormat, .toneAbsent,
      .toneLoading, .toneFormat, .gainCoverage, .exposureClamped].any fun x => hasFlag r.flags x
    let n := f.tallies.inField
    let mean := if n = 0 then 0 else (2 * f.tallies.codeSum + n) / (2 * n)
    let s1 := { s with
      records := s.records.map fun q =>
        if q.number = f.record then
          { q with
            status := if degraded then .degraded else .complete
            tagFinal := some s.timeTag
            statistics := some ⟨mean, f.tallies.saturated, f.tallies.outOfField⟩
            histogram := f.tallies.bins }
        else q
      views := upd s.views f.job.view fun w =>
        { w with counters :=
            if degraded then { w.counters with degraded := satInc w.counters.degraded }
            else { w.counters with completed := satInc w.counters.completed } }
      sourceSlots := upd s.sourceSlots f.job.slot fun y => { y with refs := y.refs - 1 }
      pins := []
      flight := none }
    let s2 := advanceBuffer f.job.view f.record degraded s1
    let s3 := selectRecord f ⟨f.slot, (pick s.outputSlots f.slot).generation⟩ s2
    let ended := { s3 with
      views := upd s3.views f.job.view fun w =>
        let y := { w with lastGood := some f.record }
        if s.jobs.all (fun k => k.view != f.job.view) then y.leaveWaiting else y }
    exec .jobEnd s = exec .jobStart ended ∧ (s.jobs = [] → exec .jobEnd s = .next ended))
  ∧ (∀ s : State, s.flight = none →
    exec .jobEnd s = .next s ∧ exec .outputPixel s = .next s ∧ (s.jobs = [] → exec .jobStart s = .next s))
  ∧ ∀ (s : State) (f : Flight), s.flight = some f →
    exec .jobStart s = .next s
    ∧ (f.produced < f.params.width * f.params.height → exec .jobEnd s = .next s)
    ∧ (f.params.width * f.params.height ≤ f.produced → exec .outputPixel s = .next s)

/-- Engine Abort (R95): the job in flight ABORTED, its pins, write slot and source reference released; with flush
every queued job removed, its reference released and its view's cancelled counter incremented; each view that has
lost its last job leaves its waiting state (R71); then, without flush, the engine's next start (log 3). The
response carries the aborted record's number (absent, it is zero bytes: log 12) and the number of jobs removed. -/
def Obligations.EngineAborts : Prop :=
  ∀ (s : State) (p : Packet) (rest : List Packet) (flush : Bool), Started .engineAbort p rest s → Ready s →
    p.payload = [flagByte flush] →
    let gone := if flush then s.jobs else []
    let stopped := s.flight.toList
    let lost := stopped.map (fun f => f.job.view) ++ gone.map fun j => j.view
    let aborted := { s.answered p rest .ok
        (optBytes 4 (s.flight.map fun f => f.record.toNat) ++ leBytes 1 gone.length) with
      records := s.records.map fun r =>
        if stopped.any (fun f => f.record == r.number) then
          { r with status := .aborted, tagFinal := some s.timeTag }
        else r
      pins := if stopped.isEmpty then s.pins else []
      flight := none
      jobs := if flush then [] else s.jobs
      sourceSlots := tabulate fun i =>
        let x := pick s.sourceSlots i
        { x with refs :=
            x.refs - (stopped.countP (fun f => f.job.slot == i) + gone.countP fun j => j.slot == i) }
      views := tabulate fun v =>
        let w := pick s.views v
        let k := { w with counters := { w.counters with
          aborted := Nat.repeat satInc (stopped.countP fun f => f.job.view == v) w.counters.aborted
          cancelled := Nat.repeat satInc (gone.countP fun j => j.view == v) w.counters.cancelled } }
        if lost.contains v && (flush || s.jobs.all fun j => j.view != v) then k.leaveWaiting else k }
    exec .engineAbort s = exec .jobStart aborted
    ∧ ((flush = true ∨ s.jobs = []) → exec .engineAbort s = .next aborted)

/-- The buffer's advance (R137, R138) and forwarding selection (R146 to R149), by scheme and by class. -/
def Obligations.AdvanceAndSelect : Prop :=
  (∀ (s : State) (v : Fin 16) (n : RecordNumber) (degraded : Bool),
    let w := pick s.views v
    (degraded = true → w.params.advanceOnDegraded = false → advanceBuffer v n degraded s = s)
    ∧ ((degraded = false ∨ w.params.advanceOnDegraded = true) →
      advanceBuffer v n degraded s = match w.params.job.scheme with
        | .unbuffered => s
        | .single => s
        | .double => { s with views := upd s.views v fun y => { y with doubleIndex := 1 - y.doubleIndex } }
        | .ring =>
          let next := (w.ringPointer + 1) % w.params.job.ringLength
          let t := { s with views := upd s.views v fun y => { y with ringPointer := next } }
          if next = 0 then t.raise (.ringWrap v w.params.job.ringLength n) else t))
  ∧ ∀ (s : State) (f : Flight) (mark : SlotMark),
    let w := pick s.views f.job.view
    let entry : ForwardEntry := ⟨f.record, f.job.view, w.params.priority, mark, f.params.width,
      f.params.height, f.params.format⟩
    let change := fun (g : View → View) => { s with views := upd s.views f.job.view g }
    selectRecord f mark s = match w.params.forwardClass with
      | .off => s
      | .every => s.offer entry
      | .decimate n =>
        if w.decimation + 1 = n then (change fun y => { y with decimation := 0 }).offer entry
        else change fun y => { y with decimation := y.decimation + 1 }
      | .spacing d =>
        let o := f.job.header.odometer.toInt
        if w.lastOdometer.all (fun m => decide ((d : Int) ≤ |o - m.toInt|)) then
          (change fun y => { y with lastOdometer := some f.job.header.odometer }).offer entry
        else s
      | .marker k =>
        let burst := if f.job.header.marker then k else w.burst
        if 0 < burst then (change fun y => { y with burst := burst - 1 }).offer entry
        else change fun y => { y with burst := burst }

/-- An entry offered to the Forward Queue (R151), the queue standing in the order of R150: with room it joins behind
the entries of its own priority and before those of a lower one; at a full queue the oldest entry of the lowest
priority makes room for an entry of no lower priority, and otherwise the new entry is dropped; a drop counts, sets
FORWARD_DROP and raises the notice. -/
def Obligations.OfferJoins : Prop :=
  ∀ (s : State) (e : ForwardEntry), (s.forwardQueue.Pairwise fun x y => y.priority ≤ x.priority) →
    let joined := fun (q : List ForwardEntry) =>
      q.filter (fun x => e.priority ≤ x.priority) ++ e :: q.filter (fun x => x.priority < e.priority)
    let drop := fun (t : State) (x : ForwardEntry) (isNew : Bool) => State.raise
      { t with
        views := upd t.views x.view fun w =>
          { w with counters := { w.counters with forwardDrops := satInc w.counters.forwardDrops } }
        sticky := withBit t.sticky StickyFlag.forwardDrop.bit }
      (.forwardDrop x.view x.record isNew)
    (s.forwardQueue.length < 64 → s.offer e = { s with forwardQueue := joined s.forwardQueue })
    ∧ (64 ≤ s.forwardQueue.length → ∀ before old after, s.forwardQueue = before ++ old :: after →
      (∀ x ∈ s.forwardQueue, old.priority ≤ x.priority) → (∀ x ∈ before, old.priority < x.priority) →
      (old.priority ≤ e.priority →
        s.offer e = drop { s with forwardQueue := joined (before ++ after) } old false)
      ∧ (e.priority < old.priority → s.offer e = drop s e true))

/-! ### The stages -/

/-- Locate and sample (R100 to R105, R108 to R110): the interpolated point of an output pixel by floor division over
the four signed node words of its cell; the axis offset; the in-field bounds; and the bilinear sample of an in-field
point, which reads no source pixel outside the frame and lies in 0 to 1,048,320. -/
def Obligations.LocatedSample : Prop :=
  (∀ (store : List (Nat × Word)) (m : Mesh) (u v : Nat),
    let s : Int := (2 ^ m.k : Nat)
    let a : Int := (u % 2 ^ m.k : Nat)
    let b : Int := (v % 2 ^ m.k : Nat)
    let node := fun di dj => storeRead store
      (m.base + 1 + (v / 2 ^ m.k + dj) * m.mw + (u / 2 ^ m.k + di))
    let x := fun di dj => ((node di dj).setWidth 16).toInt
    let y := fun di dj => ((node di dj >>> 16).setWidth 16).toInt
    let mean := fun (n : Nat → Nat → Int) =>
      Int.fdiv ((n 0 0 * (s - a) + n 1 0 * a) * (s - b) + (n 0 1 * (s - a) + n 1 1 * a) * b
        + Int.fdiv (s * s) 2) (s * s)
    meshPoint store m u v = (mean x, mean y))
  ∧ (∀ (store : List (Nat × Word)) (f : Flight) (u v : Nat),
    locate store f u v = if f.params.axisTracking then
        ((meshPoint store f.mesh u v).1 + f.job.header.axisX.toInt,
          (meshPoint store f.mesh u v).2 + f.job.header.axisY.toInt)
      else meshPoint store f.mesh u v)
  ∧ (∀ (width height : Nat) (x y : Int),
    inField width height (x, y) = true ↔
      0 ≤ x ∧ x ≤ ((width : Int) - 1) * 16 ∧ 0 ≤ y ∧ y ≤ ((height : Int) - 1) * 16)
  ∧ ∀ (pixel other : Nat → Nat → Nat) (width height x y : Nat),
    1 ≤ width → 1 ≤ height → x ≤ (width - 1) * 16 → y ≤ (height - 1) * 16 →
    let px := x / 16
    let py := y / 16
    let fx := x % 16
    let fy := y % 16
    let right := if px = width - 1 then width - 1 else px + 1
    let below := if py = height - 1 then height - 1 else py + 1
    sample pixel width height x y = pixel px py * (16 - fx) * (16 - fy) + pixel right py * fx * (16 - fy)
        + pixel px below * (16 - fx) * fy + pixel right below * fx * fy
    ∧ px < width ∧ right < width ∧ py < height ∧ below < height
    ∧ ((∀ i j, i < width → j < height → pixel i j = other i j) →
      sample pixel width height x y = sample other width height x y)
    ∧ ((∀ i j, pixel i j ≤ 4095) → sample pixel width height x y ≤ 1048320)

/-- The level stage: the exposure scale and its clamp (R115), black subtraction (R116), the place of an in-field
point on a gain surface and the surface's gain from its four halves (R117 to R119), the gain applied (R120), and the
corrected value's bound (R121). -/
def Obligations.Levelled : Prop :=
  (∀ eref ef : Nat,
    (eref = 0 → exposureScale eref ef = (4096, false))
    ∧ (0 < eref → ef = 0 → exposureScale eref ef = (4096, true))
    ∧ ∀ q, 0 < eref → 0 < ef → q * (2 * ef) ≤ 2 * eref * 4096 + ef →
      2 * eref * 4096 + ef < (q + 1) * (2 * ef) →
      (q < 1024 → exposureScale eref ef = (1024, true))
      ∧ (1024 ≤ q → q ≤ 65535 → exposureScale eref ef = (q, false))
      ∧ (65535 < q → exposureScale eref ef = (65535, true)))
  ∧ (∀ (black : Half) (r256 : Nat),
    (blackSubtract true black r256 : Int) = max 0 ((r256 : Int) - 16 * (black.toNat : Int))
    ∧ blackSubtract false black r256 = r256)
  ∧ (∀ (store : List (Nat × Word)) (t : Surface) (x y : Nat), 2 ≤ t.gw → 2 ≤ t.gh →
    let q := 2 ^ (t.cw + 4)
    let gx := min x ((t.gw - 1) * q)
    let gy := min y ((t.gh - 1) * q)
    let ci := min (gx / q) (t.gw - 2)
    let cj := min (gy / q) (t.gh - 2)
    let alpha := (gx - ci * q) * 256 / q
    let beta := (gy - cj * q) * 256 / q
    let gain := fun i j =>
      let m := j * t.gw + i
      (storeRead store (t.base + 1 + m / 2)).toNat / 65536 ^ (m % 2) % 65536
    alpha ≤ 256 ∧ beta ≤ 256 ∧ ci + 1 < t.gw ∧ cj + 1 < t.gh
    ∧ surfaceGain store t x y =
      ((gain ci cj * (256 - alpha) + gain (ci + 1) cj * alpha) * (256 - beta)
        + (gain ci (cj + 1) * (256 - alpha) + gain (ci + 1) (cj + 1) * alpha) * beta + 32768) / 65536
    ∧ surfaceGain store t x y ≤ 65535)
  ∧ (∀ (store : List (Nat × Word)) (t u : Surface) (w x y : Nat), w ≤ 256 →
    2 ≤ t.gw → 2 ≤ t.gh → 2 ≤ u.gw → 2 ≤ u.gh →
    gainAt store .unity x y = 4096
    ∧ gainAt store (.single t) x y = surfaceGain store t x y
    ∧ gainAt store (.blend t u w) x y =
      (surfaceGain store t x y * (256 - w) + surfaceGain store u x y * w + 128) / 256
    ∧ gainAt store (.blend t u w) x y ≤ 65535)
  ∧ ∀ d g e : Nat, correctedValue d g e * 2 ^ 32 ≤ d * g * e + 2 ^ 31
    ∧ d * g * e + 2 ^ 31 < (correctedValue d g e + 1) * 2 ^ 32
    ∧ (d ≤ 1048320 → g ≤ 65535 → e ≤ 65535 → correctedValue d g e ≤ 1048288)

/-- Tone and tally (R106, R122, R125 to R128, R130, R131): the curve with its clamped nodes and the linear default;
what the stages make of a pixel out of field and in field; every output code in its format's range; and the
tallies. -/
def Obligations.TonedAndTallied : Prop :=
  (∀ (store : List (Nat × Word)) (base c12 : Nat), c12 ≤ 4095 →
    let node := fun n => min 1023 ((storeRead store (base + 1 + n / 2)).toNat / 65536 ^ (n % 2) % 65536)
    toneMap store (.curve base) c12 =
      (node (c12 / 16) * (16 - c12 % 16) + node (c12 / 16 + 1) * (c12 % 16) + 8) / 16
    ∧ toneMap store (.curve base) c12 ≤ 1023
    ∧ toneMap store .linear c12 = c12 / 4 ∧ toneMap store .linear c12 ≤ 1023)
  ∧ (∀ (store : List (Nat × Word)) (pixel : Nat → Nat → Nat) (f : Flight) (u v : Nat),
    let point := locate store f u v
    let narrow := fun c => match f.params.format with
      | .code10 => c
      | .code8 => c / 4
    (inField f.width f.height point = false →
      conditionPixel store pixel f u v = .filled (narrow f.params.fill))
    ∧ (inField f.width f.height point = true →
      let x := point.1.toNat
      let y := point.2.toNat
      let d := blackSubtract f.params.blackSubtraction f.black (sample pixel f.width f.height x y)
      let c := correctedValue d (gainAt store f.gainMode x y) f.exposureScale
      conditionPixel store pixel f u v =
        .conditioned (narrow (toneMap store f.toneMode (min 4095 c))) (decide (4095 < c)))
    ∧ (f.params.fill ≤ 1023 → (conditionPixel store pixel f u v).code ≤ narrow 1023))
  ∧ ∀ (format : Format) (t : Tallies) (code : Nat) (saturated : Bool),
    let width := match format with
      | .code10 => 64
      | .code8 => 16
    tally format (.filled code) t = { t with outOfField := t.outOfField + 1 }
    ∧ (code < 16 * width →
      ∃ n, tally format (.conditioned code saturated) t = n
        ∧ n.codeSum = t.codeSum + code ∧ n.inField = t.inField + 1 ∧ n.outOfField = t.outOfField
        ∧ n.saturated = (if saturated then t.saturated + 1 else t.saturated)
        ∧ (t.bins = none → n.bins = none)
        ∧ ∀ bins, t.bins = some bins → ∃ after, n.bins = some after
          ∧ ∀ i : Fin 16, pick after i = if i.val = code / width then pick bins i + 1 else pick bins i)

/-! ### Records and the Time Tag Counter -/

/-- Read Records (R143): 1 to 8 entries by number modulo 2^32, each held record whole or the ABSENT marker, then the
next record number; nothing changes. The Time Tag Counter (R144, R145): a tick advances it by 1, wrapping; Set Time
Tag loads it, addressed with a response, and by broadcast without one. The presence byte 1 of a held record is the
model's reading (log 12). -/
def Obligations.RecordsAndTime : Prop :=
  (∀ (s : State) (p : Packet) (rest : List Packet) (first : RecordNumber) (count : Nat),
    Started .readRecords p rest s → s.starting = false → count < 256 →
    p.payload = leBytes 4 first.toNat ++ leBytes 1 count →
    ((count < 1 ∨ 8 < count) → exec .readRecords s = .next (s.answered p rest .badParam []))
    ∧ (1 ≤ count → count ≤ 8 →
      exec .readRecords s = .next (s.answered p rest .ok
        ((List.range count).flatMap (fun i =>
            match s.records.find? fun r => r.number == first + BitVec.ofNat 32 i with
            | some r => 1 :: recordBytes r
            | none => 0 :: List.replicate 106 0)
          ++ leBytes 4 s.nextRecord.toNat))))
  ∧ (∀ s : State, exec .timeTagTick s = .next { s with timeTag := s.timeTag + 1 })
  ∧ ∀ (s : State) (p : Packet) (rest : List Packet) (value : Word) (resolution : Nat), resolution < 256 →
    p.payload = leBytes 4 value.toNat ++ leBytes 1 resolution → s.starting = false →
    let known := resolution ∈ [1, 2, 4, 8, 16, 32, 64]
    (Started .setTimeTag p rest s → s.noPatchLoad →
      (¬ known → exec .setTimeTag s = .next (s.answered p rest .badParam []))
      ∧ (known → exec .setTimeTag s = .next
        { s.answered p rest .ok (leBytes 4 value.toNat ++ leBytes 1 resolution) with
          timeTag := value, resolution := resolution }))
    ∧ (s.commandBuffer = p :: rest → p.broadcast = true → p.command = 32 →
      (¬ known → exec .setTimeTag s = .next { s with commandBuffer := rest })
      ∧ (known → exec .setTimeTag s = .next
        { s with commandBuffer := rest, timeTag := value, resolution := resolution }))

/-! ### Forwarding -/

/-- Recall Frame (R152) and Recall Latest (R153): ABSENT, VIEW_STATE and STALE in that order, then PENDING when the
frame is queued or being sent, and otherwise the offer of an entry with the view's parameters as they stand, answered
QUEUED or DROPPED. The codes of the dispositions are R171's; a record without a slot is log 29. -/
def Obligations.Recalled : Prop :=
  ∀ (s : State) (p : Packet) (rest : List Packet), Ready s →
    (Started .recallLatest p rest s → ∀ v, v < 256 → p.payload = leBytes 1 v →
      (15 < v → exec .recallLatest s = .next (s.answered p rest .badParam []))
      ∧ ∀ u : Fin 16, u.val = v → (pick s.views u).lastGood = none →
        exec .recallLatest s = .next (s.answered p rest .absent []))
    ∧ ∀ (i : Instr) (n : RecordNumber) (extra : List Byte),
      ((i = .recallFrame ∧ Started .recallFrame p rest s ∧ p.payload = leBytes 4 n.toNat ∧ extra = [])
        ∨ (i = .recallLatest ∧ Started .recallLatest p rest s ∧ extra = leBytes 4 n.toNat
          ∧ ∃ u : Fin 16, p.payload = leBytes 1 u.val ∧ (pick s.views u).lastGood = some n)) →
      ((∀ r ∈ s.records, r.number ≠ n) → exec i s = .next (s.answered p rest .absent []))
      ∧ ∀ r, s.findRecord n = some r →
        (r.status ≠ .complete → r.status ≠ .degraded → exec i s = .next (s.answered p rest .viewState []))
        ∧ ∀ m, (r.status = .complete ∨ r.status = .degraded) → r.mark = some m →
          let waiting := (∃ e ∈ s.forwardQueue, e.record = n) ∨ ∃ t ∈ s.transmission, t.entry.record = n
          let w := (pick s.views r.view).params
          let e : ForwardEntry := ⟨n, r.view, w.priority, m, w.job.width, w.job.height, w.job.format⟩
          let joins := s.forwardQueue.length < 64 ∨ ∃ x ∈ s.forwardQueue, x.priority ≤ e.priority
          (s.movedOn m → exec i s = .next (s.answered p rest .stale []))
          ∧ (¬ s.movedOn m → waiting → exec i s = .next (s.answered p rest .ok (1 :: extra)))
          ∧ (¬ s.movedOn m → ¬ waiting → joins →
            exec i s = .next ((s.answered p rest .ok (0 :: extra)).offer e))
          ∧ (¬ s.movedOn m → ¬ waiting → ¬ joins →
            exec i s = .next ((s.answered p rest .ok (2 :: extra)).offer e))

/-- Uplink Pause and Resume (R157) and Uplink Flush (R158): the flush empties the queue without counts, flags or
notices and makes the current transmission's truncating end packet pending; one already truncated stays as it is
(log 16). -/
def Obligations.PauseResumeFlush : Prop :=
  ∀ (s : State) (p : Packet) (rest : List Packet), Ready s → p.payload = [] →
    (Started .uplinkPause p rest s →
      exec .uplinkPause s = .next { s.answered p rest .ok [] with paused := true })
    ∧ (Started .uplinkResume p rest s →
      exec .uplinkResume s = .next { s.answered p rest .ok [] with paused := false })
    ∧ (Started .uplinkFlush p rest s →
      exec .uplinkFlush s = .next
        { s.answered p rest .ok (leBytes 1 s.forwardQueue.length ++ [flagByte s.transmission.isSome]) with
          forwardQueue := []
          transmission := s.transmission.map fun t =>
            if t.truncation = .whole then { t with truncation := .flushed } else t })

/-- The arbiter's order at a readiness of the Uplink Port (R154, R164, R165, R168): the head response; a ready relay
packet of the oldest 64 bytes or of all; the head notice; and while the uplink is paused, with no truncating end
packet pending, nothing. -/
def Obligations.ArbiterOrder : Prop :=
  ∀ s : State,
    (∀ r rest, s.responses = r :: rest →
      exec .uplinkPortReady s = .next { s with
        responses := rest, uplinkPort := some (uplinkBytes s.nodeAddress (.response r)) })
    ∧ (s.responses = [] → s.relayWaiting →
      exec .uplinkPortReady s = .next { s with
        relayBuffer := s.relayBuffer.drop 64
        uplinkPort := some (uplinkBytes s.nodeAddress (.relay (s.relayBuffer.take 64))) })
    ∧ (s.responses = [] → ¬ s.relayWaiting → ∀ n rest, s.notices = n :: rest →
      exec .uplinkPortReady s = .next { s with
        notices := rest, uplinkPort := some (uplinkBytes s.nodeAddress (.notice n)) })
    ∧ (ImagesNext s → s.paused = true → (∀ t ∈ s.transmission, t.truncation = .whole) →
      exec .uplinkPortReady s = .next { s with uplinkPort := none })

/-- Image packets (R155, R156, R158, R159): the next line; the end packet, which ends the transmission, clears the
hold and counts a forwarded frame, but for one that Soft Reset truncated; a truncating end packet also while paused;
and a new transmission, stale entries being dropped and counted until one passes, its slot then held and its record
packet sent. The transmission ends in the readiness that takes its end packet (log 15). -/
def Obligations.Transmissions : Prop :=
  ∀ s : State, ImagesNext s →
    (∀ t, s.transmission = some t →
      let e := t.entry
      let ending := fun (truncated counted : Bool) =>
        { s with
          outputSlots := upd s.outputSlots e.mark.slot fun x => { x with held := false }
          views := if counted then
              upd s.views e.view fun w =>
                { w with counters := { w.counters with forwarded := satInc w.counters.forwarded } }
            else s.views
          transmission := none
          uplinkPort := some (uplinkBytes s.nodeAddress (.endPacket e.record t.linesSent truncated)) }
      (t.truncation = .whole → s.paused = false → t.nextLine < e.height →
        exec .uplinkPortReady s = .next { s with
          transmission := some { t with nextLine := t.nextLine + 1, linesSent := t.linesSent + 1 }
          uplinkPort := some (uplinkBytes s.nodeAddress (.line e.record t.nextLine
            (packLine e.format ((List.range e.width).map fun u =>
              readCell s e.mark.slot (t.nextLine * e.width + u))))) })
      ∧ (t.truncation = .whole → s.paused = false → e.height ≤ t.nextLine →
        exec .uplinkPortReady s = .next (ending false true))
      ∧ (t.truncation = .flushed → exec .uplinkPortReady s = .next (ending true true))
      ∧ (t.truncation = .reset → exec .uplinkPortReady s = .next (ending true false)))
    ∧ (s.transmission = none → s.paused = false → ∀ dropped rest, s.forwardQueue = dropped ++ rest →
      (∀ e ∈ dropped, (∀ r ∈ s.records, r.number ≠ e.record) ∨ s.movedOn e.mark) →
      let counted := tabulate fun v =>
        let w := pick s.views v
        { w with counters := { w.counters with
          stale := Nat.repeat satInc (dropped.countP fun e => e.view == v) w.counters.stale } }
      (rest = [] → exec .uplinkPortReady s = .next { s with
        forwardQueue := [], views := counted, uplinkPort := none })
      ∧ ∀ e waiting r, rest = e :: waiting → s.findRecord e.record = some r → ¬ s.movedOn e.mark →
        exec .uplinkPortReady s = .next { s with
          forwardQueue := waiting
          views := counted
          outputSlots := upd s.outputSlots e.mark.slot fun x => { x with held := true }
          transmission := some ⟨e, 0, 0, .whole⟩
          uplinkPort := some (uplinkBytes s.nodeAddress (.record r)) })

/-! ### Wire layouts -/

/-- The uplink packet and the frame record (R173, R175): sync, source, kind, length, payload and CRC-32; the payload
of each kind; codes packed four to five bytes or one to one; and the 106 record bytes field by field at their
offsets. -/
def Obligations.UplinkLayouts : Prop :=
  (∀ (node kind : Byte) (packet : UplinkPacket) (payload : List Byte),
    (kind, payload) ∈ (match packet with
      | .response r => [((1 : Byte), [r.tag, r.command, r.status.code] ++ r.data)]
      | .notice (.cameraDamaged c sequence repairs) =>
        [(2, [0] ++ leBytes 1 c.val ++ leBytes 2 sequence.toNat ++ leBytes 1 repairs)]
      | .notice (.viewFault v n failure) =>
        [(2, [1] ++ leBytes 1 v.val ++ leBytes 4 n.toNat ++ [failure.code])]
      | .notice (.ringWrap v length n) =>
        [(2, [2] ++ leBytes 1 v.val ++ leBytes 1 length ++ leBytes 4 n.toNat)]
      | .notice (.recordRollover n) => [(2, [3] ++ leBytes 4 n.toNat)]
      | .notice (.forwardDrop v n isNew) =>
        [(2, [4] ++ leBytes 1 v.val ++ leBytes 4 n.toNat ++ [flagByte isNew])]
      | .relay bytes => [(3, bytes)]
      | .record r => [(4, recordBytes r)]
      | .line n v codes => [(5, leBytes 4 n.toNat ++ leBytes 2 v ++ codes)]
      | .endPacket n sent truncated => [(6, leBytes 4 n.toNat ++ leBytes 2 sent ++ [flagByte truncated])]) →
    uplinkBytes node packet = [0xE6, 0x1A] ++ ([node, kind] ++ leBytes 2 payload.length ++ payload)
      ++ leBytes 4 (crc32 ([node, kind] ++ leBytes 2 payload.length ++ payload)).toNat)
  ∧ (∀ c0 c1 c2 c3 : Cell, ∀ more, c0.toNat < 1024 → c1.toNat < 1024 → c2.toNat < 1024 → c3.toNat < 1024 →
    ∃ b0 b1 b2 b3 b4 : Byte,
      packLine .code10 (c0 :: c1 :: c2 :: c3 :: more)
        = b0 :: b1 :: b2 :: b3 :: b4 :: packLine .code10 more
      ∧ b0.toNat + 256 * (b4.toNat % 4) = c0.toNat ∧ b1.toNat + 256 * (b4.toNat / 4 % 4) = c1.toNat
      ∧ b2.toNat + 256 * (b4.toNat / 16 % 4) = c2.toNat ∧ b3.toNat + 256 * (b4.toNat / 64) = c3.toNat)
  ∧ (∀ cells : List Cell, cells.length % 4 = 0 → 4 * (packLine .code10 cells).length = 5 * cells.length)
  ∧ (∀ cells : List Cell, (∀ c ∈ cells, c.toNat < 256) →
    (packLine .code8 cells).map BitVec.toNat = cells.map BitVec.toNat)
  ∧ ∀ r : Record, r.repairs < 256 →
    (∀ x ∈ r.statistics, x.mean < 65536 ∧ x.saturated < 2 ^ 32 ∧ x.outOfField < 2 ^ 32) →
    (∀ h ∈ r.histogram, ∀ i : Fin 16, pick h i < 2 ^ 32) →
    let at_ := num (recordBytes r)
    (recordBytes r).length = 106
    ∧ at_ 0 4 = r.number.toNat ∧ at_ 4 1 = r.view.val ∧ at_ 5 1 = r.camera.val ∧ at_ 6 2 = r.sequence.toNat
    ∧ at_ 8 4 = r.odometer.toNat ∧ at_ 12 1 = r.level.val ∧ at_ 13 1 = (if r.marker then 1 else 0)
    ∧ at_ 14 2 = r.exposure.toNat ∧ at_ 16 1 = r.repairs ∧ at_ 17 1 = r.status.code.toNat
    ∧ at_ 18 1 = (if r.tagFinal.isSome then 1 else 0) + (if r.mark.isSome then 2 else 0)
      + (if r.statistics.isSome then 4 else 0) + (if r.histogram.isSome then 8 else 0)
    ∧ at_ 19 2 = r.flags.toNat ∧ at_ 21 4 = r.tagStart.toNat
    ∧ at_ 25 4 = (match r.tagFinal with | some t => t.toNat | none => 0)
    ∧ at_ 29 1 = (match r.mark with | some m => m.slot.val + 12 | none => 0)
    ∧ at_ 30 2 = (match r.mark with | some m => m.generation.toNat | none => 0)
    ∧ at_ 32 2 = (match r.statistics with | some x => x.mean | none => 0)
    ∧ at_ 34 4 = (match r.statistics with | some x => x.saturated | none => 0)
    ∧ at_ 38 4 = (match r.statistics with | some x => x.outOfField | none => 0)
    ∧ ∀ i : Fin 16, at_ (42 + 4 * i.val) 4 = match r.histogram with | some h => pick h i | none => 0

/-! ### In-band management -/

/-- Downlink packets (R160, R161, R162, R172): a packet of the layout with a matching CRC-32 is dispatched by its
destination, to the Command Buffer or, when that is full, to a COMMAND_OVERRUN, and out of the Relay Port byte for
byte; every other packet is discarded and counted. What left the Relay Port before is gone (log 17). -/
def Obligations.DownlinkDispatched : Prop :=
  ∀ s : State, s.nodeAddress ≠ 255 →
    let frame := fun (destination tag command : Byte) (payload : List Byte) =>
      let body := [destination, tag, command] ++ leBytes 2 payload.length ++ payload
      ([0xE6, 0x19] ++ body ++ leBytes 4 (crc32 body).toNat : List Byte)
    let buffered := fun (p : Packet) (t : State) =>
      if s.commandBuffer.length < 8 then { t with commandBuffer := s.commandBuffer ++ [p] }
      else { t with
        sticky := withBit s.sticky StickyFlag.commandOverrun.bit
        interfaceCounters := { s.interfaceCounters with
          commandOverruns := satInc s.interfaceCounters.commandOverruns } }
    (∀ destination tag command payload, payload.length ≤ 1040 →
      let packet := frame destination tag command payload
      exec (.downlinkPacket packet) s = .next
        (if destination = s.nodeAddress then
          buffered ⟨false, tag, command, payload⟩ { s with relayPort := none }
        else if destination = 255 then
          buffered ⟨true, tag, command, payload⟩ { s with relayPort := some packet }
        else { s with relayPort := some packet }))
    ∧ ∀ packet, (¬ ∃ destination tag command payload, payload.length ≤ 1040
        ∧ packet = frame destination tag command payload) →
      exec (.downlinkPacket packet) s = .next { s with
        relayPort := none
        sticky := withBit s.sticky StickyFlag.downlinkCrc.bit
        interfaceCounters := { s.interfaceCounters with
          downlinkErrors := satInc s.interfaceCounters.downlinkErrors } }

/-- Identify (R167), Get Status and Clear Status (R166), Read Counters (R167, R18, R76) and Set Notice Mask (R165).
The widths and order of the response data are R171's over the orders these rules list (log 12); the first
flag of a set is bit 0 of its first byte (log 31). -/
def Obligations.StatusAndCounters : Prop :=
  ∀ (s : State) (p : Packet) (rest : List Packet),
    (Started .identify p rest s → p.payload = [] →
      exec .identify s = .next (s.answered p rest .ok
        ([69, 67, 45, 54, 52, 1, s.nodeAddress, 4, 16, 64] ++ leBytes 4 131072)))
    ∧ (Started .getStatus p rest s → p.payload = [] →
      exec .getStatus s = .next (s.answered p rest .ok
        (leBytes 2 s.sticky.toNat ++ [flagByte s.starting, flagByte s.flight.isSome,
            match s.loadUnit with
            | .idle => 0
            | .loading _ _ _ => 1
            | .streaming _ _ _ => 2,
            flagByte s.paused, flagByte s.window.locked]
          ++ leBytes 1 s.jobs.length ++ leBytes 1 s.forwardQueue.length)))
    ∧ (∀ mask, Started .clearStatus p rest s → Ready s → mask < 65536 → p.payload = leBytes 2 mask →
      (512 ≤ mask → exec .clearStatus s = .next (s.answered p rest .badParam []))
      ∧ (mask < 512 → ∃ t, exec .clearStatus s = .next t
        ∧ (∀ i, t.sticky.getLsbD i = (s.sticky.getLsbD i && !mask.testBit i))
        ∧ t = { s.answered p rest .ok (leBytes 2 s.sticky.toNat) with sticky := t.sticky }))
    ∧ (∀ kind number clear, Started .readCounters p rest s → s.starting = false → kind < 256 → number < 256 →
      clear < 256 → p.payload = leBytes 1 kind ++ leBytes 1 number ++ leBytes 1 clear →
      ((1 < clear ∨ 2 < kind ∨ (kind = 0 ∧ 3 < number) ∨ (kind = 1 ∧ 15 < number)) →
        exec .readCounters s = .next (s.answered p rest .badParam []))
      ∧ (∀ c : Fin 4, kind = 0 → number = c.val → clear ≤ 1 →
        let k := (pick s.ports c).counters
        exec .readCounters s = .next { s.answered p rest .ok
            ([k.framesPosted, k.geometryRejects, k.noSlotDrops, k.badLines, k.duplicateLines,
              k.linesRepaired, k.damagedFrames, k.endMismatches, k.sequenceGaps].flatMap
                fun x => leBytes 4 x.toNat) with
          ports := if clear = 1 then
              upd s.ports c fun q => { q with counters := ⟨0, 0, 0, 0, 0, 0, 0, 0, 0⟩ }
            else s.ports })
      ∧ (∀ v : Fin 16, kind = 1 → number = v.val → clear ≤ 1 →
        let k := (pick s.views v).counters
        exec .readCounters s = .next { s.answered p rest .ok
            ([k.admitted, k.queueFullSkips, k.completed, k.degraded, k.faulted, k.slotHeldSkips, k.aborted,
              k.cancelled, k.forwarded, k.forwardDrops, k.stale].flatMap fun x => leBytes 4 x.toNat) with
          views := if clear = 1 then
              upd s.views v fun w => { w with counters := ⟨0, 0, 0, 0, 0, 0, 0, 0, 0, 0, 0⟩ }
            else s.views })
      ∧ (kind = 2 → clear ≤ 1 →
        let k := s.interfaceCounters
        exec .readCounters s = .next { s.answered p rest .ok
            ([k.downlinkErrors, k.commandOverruns, k.noticesLost, k.relayBytesDropped].flatMap
              fun x => leBytes 4 x.toNat) with
          interfaceCounters := if clear = 1 then ⟨0, 0, 0, 0⟩ else s.interfaceCounters }))
    ∧ ∀ mask, Started .setNoticeMask p rest s → Ready s → mask < 256 → p.payload = leBytes 1 mask →
      (32 ≤ mask → exec .setNoticeMask s = .next (s.answered p rest .badParam []))
      ∧ (mask < 32 → ∃ t, exec .setNoticeMask s = .next t
        ∧ (∀ i, t.noticeMask.getLsbD i = mask.testBit i)
        ∧ t = { s.answered p rest .ok [] with noticeMask := t.noticeMask })

/-- Relay bytes (R168): a byte joins the buffer and the 2 ms interval restarts; at 256 bytes it is discarded, counted
and RELAY_OVERRUN set, the interval restarting there too (log 18); the interval's end readies a relay packet when a
byte waits, and with an empty buffer, where it cannot take place, changes nothing (log 4). Notices (R165): masked,
nothing is raised; queued behind the others; at 16 dropped with NOTICE_LOST and a count. -/
def Obligations.RelayAndNotices : Prop :=
  (∀ (s : State) (b : Byte),
    (s.relayBuffer.length < 256 → exec (.relayByte b) s = .next { s with
      relayBuffer := s.relayBuffer ++ [b], relayInterval := .running })
    ∧ (256 ≤ s.relayBuffer.length → exec (.relayByte b) s = .next { s with
      relayInterval := .running
      sticky := withBit s.sticky StickyFlag.relayOverrun.bit
      interfaceCounters := { s.interfaceCounters with
        relayBytesDropped := satInc s.interfaceCounters.relayBytesDropped } })
    ∧ (s.relayBuffer ≠ [] → ∃ t, exec .relayIdleTimeout s = .next t ∧ t.relayWaiting
      ∧ t = { s with relayInterval := .elapsed })
    ∧ (s.relayBuffer = [] → exec .relayIdleTimeout s = .next s))
  ∧ ∀ (s : State) (n : Notice),
    let kind := match n with
      | .cameraDamaged _ _ _ => 0
      | .viewFault _ _ _ => 1
      | .ringWrap _ _ _ => 2
      | .recordRollover _ => 3
      | .forwardDrop _ _ _ => 4
    (s.noticeMask.getLsbD kind = false → s.raise n = s)
    ∧ (s.noticeMask.getLsbD kind = true → s.notices.length < 16 →
      s.raise n = { s with notices := s.notices ++ [n] })
    ∧ (s.noticeMask.getLsbD kind = true → 16 ≤ s.notices.length →
      s.raise n = { s with
        sticky := withBit s.sticky StickyFlag.noticeLost.bit
        interfaceCounters := { s.interfaceCounters with
          noticesLost := satInc s.interfaceCounters.noticesLost } })

/-! ### Invariants -/

/-- Every invariant below holds right after power-on reset. -/
def Obligations.SoundAtReset : Prop :=
  Memory.wf State.reset = true ∧ QueuesBounded State.reset ∧ ReferencesCounted State.reset
  ∧ ForwardsDistinct State.reset ∧ IntakeSound State.reset ∧ HoldsSound State.reset ∧ TablesSound State.reset
  ∧ ViewsSound State.reset ∧ JobsSound State.reset ∧ RecordsSound State.reset ∧ TalliesSound State.reset

/-- Every step keeps the memories in their one form and every collection within its places (R80, R139, R150, R162,
R164, R165, R168), the Forward Queue in descending priority (R150). It keeps the queue's entries to one a record
(R150) as long as no entry names the next record number, and only that number's advance onto a waiting entry ends
this: record numbers wrap, so it takes an entry that outlasts 2^32 records (log 30). -/
def Obligations.MemoryAndQueuesKept : Prop :=
  ∀ s t : State, Memory.wf s = true → QueuesBounded s → step s = .next t →
    Memory.wf t = true ∧ QueuesBounded t
    ∧ (RecordsSound s → ForwardsDistinct s → (∀ e ∈ s.forwardQueue, e.record ≠ s.nextRecord) →
      ForwardsDistinct t
      ∧ ∀ e ∈ t.forwardQueue, e.record = t.nextRecord →
        t.nextRecord = s.nextRecord + 1 ∧ e ∈ s.forwardQueue)

/-- Every step keeps the slots sound: a source slot's reference count is the number of queued and in-flight jobs that
name it (R14), the intake writes only unreferenced slots (R15), and the held output slot is the current transmission's
and not the write slot (R91, R136). So through every step but a power-on reset the lines of a referenced source slot
stand, and so do the cells and the generation of a held output slot. -/
def Obligations.SlotsKept : Prop :=
  ∀ s t : State, ReferencesCounted s → IntakeSound s → HoldsSound s → step s = .next t →
    ReferencesCounted t ∧ IntakeSound t ∧ HoldsSound t
    ∧ ((∀ strap rest, s.pending ≠ .powerOnReset strap :: rest) →
      (∀ i, 0 < (pick s.sourceSlots i).refs →
        (pick t.sourceSlots i).rows = (pick s.sourceSlots i).rows)
      ∧ ∀ x, (pick s.outputSlots x).held = true →
        (pick t.outputSlots x).cells = (pick s.outputSlots x).cells
        ∧ (pick t.outputSlots x).generation = (pick s.outputSlots x).generation)

/-- Every step keeps the tables sound (R22, R38, R40, R41, R42); so no protected word and no pinned word is written
by any step but a power-on reset and the end of its sweep (R21, R37, R40). -/
def Obligations.TablesKept : Prop :=
  ∀ s t : State, TablesSound s → step s = .next t →
    TablesSound t
    ∧ ((∀ strap rest, s.pending ≠ .powerOnReset strap :: rest) →
      (∀ rest, s.pending ≠ .startupSweepEnd :: rest) →
      ∀ a, (s.window.protects a = true ∨ ∃ x ∈ s.pins, x.first ≤ a ∧ a < x.first + x.count) →
        storeRead t.tableStore a = storeRead s.tableStore a)

/-- Every step keeps the Record List and the running tallies sound (R129 to R131, R139 to R141); and a record that has
left IN_PROGRESS keeps every field until it is removed from the list (R141), but for a power-on reset. A job that
ends COMPLETE or DEGRADED leaves a histogram part exactly when it latched the histogram option on (R141). -/
def Obligations.RecordsKept : Prop :=
  ∀ s t : State, RecordsSound s → TalliesSound s → step s = .next t →
    RecordsSound t ∧ TalliesSound t
    ∧ (∀ f ∈ s.flight, ∀ r ∈ t.records, r.number = f.record → (r.status = .complete ∨ r.status = .degraded) →
      r.histogram.isSome = f.params.histogram)
    ∧ ((∀ strap rest, s.pending ≠ .powerOnReset strap :: rest) →
      ∀ r ∈ s.records, r.status ≠ .inProgress → r ∈ t.records ∨ ∀ q ∈ t.records, q.number ≠ r.number)

/-- The part never stops, and its views and jobs stay sound (R62, R63, R68 to R71, R73, R74, R82): from a state whose
tables, views and jobs are sound every step answers a next state whose views and jobs are sound. The two faults are
for other states (log 22). -/
def Obligations.ViewsAndJobsKept : Prop :=
  ∀ s : State, TablesSound s → ViewsSound s → JobsSound s →
    ∃ t, step s = .next t ∧ ViewsSound t ∧ JobsSound t
end

