-- ==== Sys2Proof/Laws/Bytes.lean ====
section
/-! SUPPORT. Numbers and flags in bytes: what a written number reads as, and lengths. -/

namespace Sys2Proof.Machine

/-- A number takes the bytes it is given. -/
@[simp] theorem leBytes_length (k n : Nat) : (leBytes k n).length = k := by
  induction k generalizing n with
  | zero => rfl
  | succ k ih => simp [leBytes, ih]

/-- The number of `k` written bytes is the number modulo 256 to the `k`. -/
theorem leNat_leBytes_mod (k n : Nat) : leNat (leBytes k n) = n % 256 ^ k := by
  induction k generalizing n with
  | zero => simp [leBytes, leNat, Nat.mod_one]
  | succ k ih =>
    have h := Nat.mod_mul (a := 256) (b := 256 ^ k) (x := n)
    rw [Nat.pow_succ', h]
    simp [leBytes, leNat, ih]

/-- A number that fits its bytes reads back. -/
theorem leNat_leBytes {k n : Nat} (h : n < 256 ^ k) : leNat (leBytes k n) = n := by
  rw [leNat_leBytes_mod, Nat.mod_eq_of_lt h]

/-- The number of `k` bytes is below 256 to the `k`. -/
theorem leNat_lt (bs : List Byte) : leNat bs < 256 ^ bs.length := by
  induction bs with
  | nil => simp [leNat]
  | cons b bs ih =>
    have := b.isLt
    simp only [leNat, List.length_cons, Nat.pow_succ]
    omega

/-- Writing the number that bytes carry gives the bytes. -/
theorem leBytes_leNat (bs : List Byte) : leBytes bs.length (leNat bs) = bs := by
  induction bs with
  | nil => rfl
  | cons b bs ih =>
    have h := b.isLt
    have hd : (b.toNat + 256 * leNat bs) / 256 = leNat bs := by omega
    simp only [List.length_cons, leBytes, leNat, hd, ih]
    congr 1
    apply BitVec.eq_of_toNat_eq
    simp only [BitVec.toNat_ofNat]
    omega

/-- The field at the front of a payload. -/
theorem num_append_front (bs rest : List Byte) : num (bs ++ rest) 0 bs.length = leNat bs := by
  simp [num]

/-- A field behind the front bytes. -/
theorem num_append_skip (bs rest : List Byte) (off k : Nat) :
    num (bs ++ rest) (bs.length + off) k = num rest off k := by
  have h : (bs ++ rest).drop (bs.length + off) = rest.drop off := by
    rw [← List.drop_drop, List.drop_left]
  simp [num, h]

/-- A number in its own range below `n` is found. -/
theorem below?_eq_some {n v : Nat} {i : Fin n} : below? n v = some i ↔ i.val = v := by
  unfold below?
  constructor
  · intro h
    split at h
    · cases h; rfl
    · cases h
  · intro h
    have : v < n := h ▸ i.isLt
    simp only [this, ↓reduceDIte, Option.some.injEq]
    exact Fin.ext h.symm

/-- A number out of range is not. -/
theorem below?_eq_none {n v : Nat} : below? n v = none ↔ n ≤ v := by
  unfold below?
  split <;> simp_all

/-- The code of a switch. -/
@[simp] theorem switch?_flagByte (b : Bool) : switch? (flagByte b).toNat = some b := by cases b <;> rfl

/-- A byte names no switch position above 1. -/
theorem switch?_eq_none {n : Nat} : switch? n = none ↔ 2 ≤ n := by
  match n with
  | 0 => simp [switch?]
  | 1 => simp [switch?]
  | n + 2 => simp [switch?]

/-- A command's own byte names it: codes are 1 to 38 and differ. -/
theorem Command.code_injective : ∀ c d : Command, c.code = d.code → c = d := by
  intro c d
  cases c <;> cases d <;> first | (intro _; rfl) | (intro h; exact absurd h (by decide))

/-- Every command's code names a command. -/
@[simp] theorem namesCommand_code (c : Command) : namesCommand c.code = true := by cases c <;> rfl

/-- A code of the format's range is carried as it is. -/
theorem carriedBits_of_lt {c : Cell} (h : c.toNat < 1024) : carriedBits c = c.setWidth 10 := by
  simp [carriedBits, h]

/-- A word's four bytes, joined again. -/
theorem append_bytes (w : Word) :
    BitVec.ofNat 8 (w.toNat / 256 / 256 / 256) ++ BitVec.ofNat 8 (w.toNat / 256 / 256)
      ++ BitVec.ofNat 8 (w.toNat / 256) ++ BitVec.ofNat 8 w.toNat = w := by
  have hw := w.isLt
  apply BitVec.eq_of_toNat_eq
  simp only [BitVec.toNat_append, BitVec.toNat_ofNat]
  rw [← Nat.shiftLeft_add_eq_or_of_lt (by omega), ← Nat.shiftLeft_add_eq_or_of_lt (by omega),
    ← Nat.shiftLeft_add_eq_or_of_lt (by omega)]
  simp only [Nat.shiftLeft_eq]
  omega

/-- The words of a payload made of whole words. -/
theorem payloadWords_flatMap (ws : List Word) :
    payloadWords (ws.flatMap fun w => leBytes 4 w.toNat) = some ws := by
  induction ws with
  | nil => rfl
  | cons w ws ih =>
    rw [List.flatMap_cons]
    change Option.map _ (payloadWords (ws.flatMap fun w => leBytes 4 w.toNat)) = _
    rw [ih, Option.map_some, append_bytes]

end Sys2Proof.Machine
end

