-- ==== Sys2Proof/Laws/Vectors.lean ====
section
/-! SUPPORT. Reading a vector after each of its updates. -/

namespace Sys2Proof

/-- Two vectors with the same elements are equal. -/
theorem pick_ext {α : Type} {n : Nat} {v w : Vector α n} (h : ∀ i, pick v i = pick w i) : v = w :=
  Vector.ext fun i hi => h ⟨i, hi⟩

/-- The element an update passes through `f`. -/
@[simp] theorem pick_upd_same {α : Type} {n : Nat} (v : Vector α n) (i : Fin n) (f : α → α) :
    pick (upd v i f) i = f (pick v i) := by
  simp [pick, upd]

/-- Every other element stands. -/
theorem pick_upd_other {α : Type} {n : Nat} (v : Vector α n) {i j : Fin n} (f : α → α) (h : j ≠ i) :
    pick (upd v i f) j = pick v j := by
  have : i.val ≠ j.val := fun e => h (Fin.ext e.symm)
  simp [pick, upd, this]

/-- Any element after an update. -/
theorem pick_upd {α : Type} {n : Nat} (v : Vector α n) (i j : Fin n) (f : α → α) :
    pick (upd v i f) j = if j = i then f (pick v j) else pick v j := by
  by_cases h : j = i
  · subst h; simp
  · simp [pick_upd_other v f h, h]

/-- Two updates of one element are one update. -/
@[simp] theorem upd_upd {α : Type} {n : Nat} (v : Vector α n) (i : Fin n) (f g : α → α) :
    upd (upd v i f) i g = upd v i fun x => g (f x) :=
  pick_ext fun j => by
    by_cases h : j = i
    · subst h; simp
    · simp [pick_upd_other _ _ h]

/-- Updates of two elements commute. -/
theorem upd_comm {α : Type} {n : Nat} (v : Vector α n) {i j : Fin n} (f g : α → α) (h : i ≠ j) :
    upd (upd v i f) j g = upd (upd v j g) i f :=
  pick_ext fun k => by
    simp only [pick_upd]
    split <;> split <;> simp_all

/-- An update that changes nothing. -/
theorem upd_self {α : Type} {n : Nat} (v : Vector α n) (i : Fin n) (f : α → α) (h : f (pick v i) = pick v i) :
    upd v i f = v :=
  pick_ext fun j => by
    by_cases e : j = i
    · subst e; simpa using h
    · simp [pick_upd_other _ _ e]

/-- An element of a tabulated vector. -/
@[simp] theorem pick_tabulate {α : Type} {n : Nat} (f : Fin n → α) (i : Fin n) : pick (tabulate f) i = f i := by
  simp [pick, tabulate]

/-- An element after an update of every element. -/
@[simp] theorem pick_updAll {α β : Type} {n : Nat} (v : Vector α n) (f : α → β) (i : Fin n) :
    pick (updAll v f) i = f (pick v i) := by
  simp [updAll]

/-- An element of a constant vector. -/
@[simp] theorem pick_replicate {α : Type} (n : Nat) (a : α) (i : Fin n) :
    pick (Vector.replicate n a) i = a := by
  simp [pick]

/-- A property of every element. -/
@[simp] theorem every_iff {α : Type} {n : Nat} (v : Vector α n) (p : α → Bool) :
    every v p = true ↔ ∀ i, p (pick v i) = true := by
  simp [every]

end Sys2Proof
end

