-- ==== Sys2Proof/Laws/Memory.lean ====
section
/-! SUPPORT. The memories: reading after a write, and the canonical form each operation keeps. -/

namespace Sys2Proof.Machine

variable {α : Type}

/-! ### Sparse lists -/

/-- A written address reads the value written. -/
@[simp] theorem findAt_putAt_same (a : Nat) (v : α) (m : List (Nat × α)) : findAt a (putAt a v m) = some v := by
  induction m with
  | nil => simp [putAt, findAt]
  | cons p m ih =>
    obtain ⟨b, w⟩ := p
    simp only [putAt]
    split
    · simp [findAt]
    · split
      · simp [findAt]
      · next h => simpa [findAt, h] using ih

/-- A write leaves every other address. -/
theorem findAt_putAt_other {a b : Nat} (v : α) (m : List (Nat × α)) (h : b ≠ a) :
    findAt b (putAt a v m) = findAt b m := by
  induction m with
  | nil => simp [putAt, findAt, h]
  | cons p m ih =>
    obtain ⟨c, w⟩ := p
    simp only [putAt]
    split
    · simp [findAt, h]
    · split
      · next e => subst e; simp [findAt, h]
      · simp [findAt, ih]

/-- A removal leaves every other address. -/
theorem findAt_dropAt_other {a b : Nat} (m : List (Nat × α)) (h : b ≠ a) :
    findAt b (dropAt a m) = findAt b m := by
  induction m with
  | nil => rfl
  | cons p m ih =>
    obtain ⟨c, w⟩ := p
    simp only [dropAt]
    split
    · next e => subst e; simp [findAt, h]
    · simp [findAt, ih]

/-- Rising addresses, as a pairwise order. -/
theorem rising_iff (m : List (Nat × α)) : rising m = true ↔ m.Pairwise fun p q => p.1 < q.1 := by
  induction m with
  | nil => simp [rising]
  | cons p m ih =>
    match m with
    | [] => simp [rising]
    | q :: m =>
      simp only [rising, Bool.and_eq_true, decide_eq_true_eq, ih, List.pairwise_cons, List.mem_cons,
        forall_eq_or_imp]
      constructor
      · rintro ⟨h, k, l⟩
        exact ⟨⟨h, fun x hx => lt_trans h (k x hx)⟩, k, l⟩
      · rintro ⟨⟨h, -⟩, k, l⟩
        exact ⟨h, k, l⟩

/-- Nothing below the first address is listed. -/
theorem findAt_none_of_lt {a : Nat} (m : List (Nat × α)) (h : ∀ p ∈ m, a < p.1) : findAt a m = none := by
  induction m with
  | nil => rfl
  | cons p m ih =>
    obtain ⟨b, w⟩ := p
    have hb : a < b := h (b, w) (by simp)
    simp only [findAt, show a ≠ b by omega, if_false]
    exact ih fun q hq => h q (by simp [hq])

/-- The addresses of a list after a write. -/
theorem mem_putAt {a : Nat} {v : α} {m : List (Nat × α)} {p : Nat × α} (h : p ∈ putAt a v m) :
    p = (a, v) ∨ p ∈ m := by
  induction m with
  | nil => simpa [putAt] using h
  | cons q m ih =>
    obtain ⟨b, w⟩ := q
    simp only [putAt] at h
    split at h
    · simpa using h
    · split at h <;> simp only [List.mem_cons] at h ⊢
      · tauto
      · rcases h with h | h
        · tauto
        · rcases ih h with e | e <;> tauto

/-- The entries of a list after a removal. -/
theorem mem_dropAt {a : Nat} {m : List (Nat × α)} {p : Nat × α} (h : p ∈ dropAt a m) : p ∈ m := by
  induction m with
  | nil => exact h
  | cons q m ih =>
    obtain ⟨b, w⟩ := q
    simp only [dropAt] at h
    split at h
    · exact List.mem_cons_of_mem _ h
    · simp only [List.mem_cons] at h ⊢
      rcases h with h | h
      · exact .inl h
      · exact .inr (ih h)

/-- A write keeps rising addresses. -/
theorem rising_putAt (a : Nat) (v : α) {m : List (Nat × α)} (h : rising m = true) :
    rising (putAt a v m) = true := by
  rw [rising_iff] at h ⊢
  induction m with
  | nil => simp [putAt]
  | cons q m ih =>
    obtain ⟨b, w⟩ := q
    rw [List.pairwise_cons] at h
    simp only [putAt]
    split
    · next hlt =>
      refine List.pairwise_cons.2 ⟨?_, List.pairwise_cons.2 h⟩
      intro p hp
      rcases List.mem_cons.1 hp with rfl | hp
      · exact hlt
      · exact lt_trans hlt (h.1 p hp)
    · split
      · next e => subst e; exact List.pairwise_cons.2 h
      · next h1 h2 =>
        refine List.pairwise_cons.2 ⟨?_, ih h.2⟩
        intro p hp
        rcases mem_putAt hp with rfl | hp
        · change b < a
          omega
        · exact h.1 p hp

/-- A removal keeps rising addresses. -/
theorem rising_dropAt (a : Nat) {m : List (Nat × α)} (h : rising m = true) : rising (dropAt a m) = true := by
  rw [rising_iff] at h ⊢
  induction m with
  | nil => exact h
  | cons q m ih =>
    obtain ⟨b, w⟩ := q
    rw [List.pairwise_cons] at h
    simp only [dropAt]
    split
    · exact h.2
    · exact List.pairwise_cons.2 ⟨fun p hp => h.1 p (mem_dropAt hp), ih h.2⟩

/-- A removed address of a rising list is not listed. -/
theorem findAt_dropAt_same (a : Nat) {m : List (Nat × α)} (h : rising m = true) : findAt a (dropAt a m) = none := by
  rw [rising_iff] at h
  induction m with
  | nil => rfl
  | cons q m ih =>
    obtain ⟨b, w⟩ := q
    rw [List.pairwise_cons] at h
    simp only [dropAt]
    split
    · next e => subst e; exact findAt_none_of_lt m h.1
    · next e => simpa [findAt, e] using ih h.2

/-! ### The Table Store -/

/-- The canonical form in its parts. -/
theorem storeCanonical_iff (m : List (Nat × Word)) :
    storeCanonical m = true ↔ rising m = true ∧ ∀ p ∈ m, p.1 < Config.storeWords ∧ p.2 ≠ 0 := by
  simp [storeCanonical]

/-- A written word inside the store reads back. -/
theorem storeRead_storeWrite_same {m : List (Nat × Word)} {a : Nat} (w : Word) (h : rising m = true)
    (ha : a < Config.storeWords) : storeRead (storeWrite m a w) a = w := by
  simp only [storeRead, storeWrite, show ¬ Config.storeWords ≤ a by omega, if_false]
  split
  · next e => simp [findAt_dropAt_same a h, e]
  · simp

/-- A write leaves every other word. -/
theorem storeRead_storeWrite_other (m : List (Nat × Word)) {a b : Nat} (w : Word) (h : b ≠ a) :
    storeRead (storeWrite m a w) b = storeRead m b := by
  simp only [storeRead, storeWrite]
  split
  · rfl
  · split
    · rw [findAt_dropAt_other m h]
    · rw [findAt_putAt_other w m h]

/-- A write keeps the canonical form. -/
theorem storeCanonical_storeWrite {m : List (Nat × Word)} (a : Nat) (w : Word) (h : storeCanonical m = true) :
    storeCanonical (storeWrite m a w) = true := by
  rw [storeCanonical_iff] at h ⊢
  simp only [storeWrite]
  split
  · exact h
  · next ha =>
    split
    · exact ⟨rising_dropAt a h.1, fun p hp => h.2 p (mem_dropAt hp)⟩
    · next hw =>
      refine ⟨rising_putAt a w h.1, fun p hp => ?_⟩
      rcases mem_putAt hp with rfl | hp
      · exact ⟨by omega, hw⟩
      · exact h.2 p hp

/-- A run of writes keeps the canonical form. -/
theorem storeCanonical_storeWriteAll {m : List (Nat × Word)} (a : Nat) (ws : List Word)
    (h : storeCanonical m = true) : storeCanonical (storeWriteAll m a ws) = true := by
  induction ws generalizing m a with
  | nil => exact h
  | cons w ws ih => exact ih (a + 1) (storeCanonical_storeWrite a w h)

/-- A word outside a run of writes. -/
theorem storeRead_storeWriteAll_other (m : List (Nat × Word)) {a b : Nat} (ws : List Word)
    (h : b < a ∨ a + ws.length ≤ b) : storeRead (storeWriteAll m a ws) b = storeRead m b := by
  induction ws generalizing m a with
  | nil => rfl
  | cons w ws ih =>
    simp only [List.length_cons] at h
    simp only [storeWriteAll]
    rw [ih (storeWrite m a w) (by omega), storeRead_storeWrite_other m w (by omega)]

/-- Any word after a run of writes inside the store: word `i` of the run at address `a + i`, every other word as it
stood. -/
theorem storeRead_storeWriteAll {m : List (Nat × Word)} {a : Nat} {ws : List Word}
    (hm : storeCanonical m = true) (ha : a + ws.length ≤ Config.storeWords) (b : Nat) :
    storeRead (storeWriteAll m a ws) b =
      if a ≤ b ∧ b < a + ws.length then ws.getD (b - a) 0 else storeRead m b := by
  induction ws generalizing m a with
  | nil =>
    have : ¬ (a ≤ b ∧ b < a + ([] : List Word).length) := by simp
    rw [if_neg this]; rfl
  | cons w ws ih =>
    simp only [List.length_cons] at ha ⊢
    simp only [storeWriteAll]
    by_cases hb : b = a
    · subst hb
      rw [storeRead_storeWriteAll_other _ ws (by omega),
        storeRead_storeWrite_same w ((storeCanonical_iff m).1 hm).1 (by omega)]
      simp
    · rw [ih (storeCanonical_storeWrite a w hm) (by omega), storeRead_storeWrite_other m w hb]
      by_cases hr : a + 1 ≤ b ∧ b < a + 1 + ws.length
      · rw [if_pos hr, if_pos (by omega), show b - a = (b - (a + 1)) + 1 by omega]
        simp
      · rw [if_neg hr, if_neg (by omega)]

/-- The words read are the store's, one for each address. -/
theorem storeReadAll_eq (m : List (Nat × Word)) (a n : Nat) :
    storeReadAll m a n = (List.range n).map fun i => storeRead m (a + i) := by
  induction n generalizing a with
  | zero => rfl
  | succ n ih =>
    simp only [storeReadAll, ih, List.range_succ_eq_map, List.map_cons, List.map_map, Nat.add_zero]
    congr 1
    apply List.map_congr_left
    intro i _
    simp only [Function.comp_apply]
    congr 1
    omega

/-! ### The memories of the part -/

/-- The canonical form of the memories in its parts. -/
theorem memory_wf_iff (s : State) : Memory.wf s = true ↔ storeCanonical s.tableStore = true
    ∧ (∀ i, rising (pick s.sourceSlots i).rows = true) ∧ ∀ x, rising (pick s.outputSlots x).cells = true := by
  simp [Memory.wf, and_assoc]

/-- The memories after power-on reset have the canonical form. -/
theorem memory_wf_reset : Memory.wf State.reset = true := by
  rw [memory_wf_iff]
  exact ⟨by decide, by decide, by decide⟩

/-- Writing words into the Table Store keeps the canonical form. -/
theorem memory_wf_storeWriteAll {s : State} (a : Nat) (ws : List Word) (h : Memory.wf s = true) :
    Memory.wf { s with tableStore := storeWriteAll s.tableStore a ws } = true := by
  rw [memory_wf_iff] at h ⊢
  exact ⟨storeCanonical_storeWriteAll a ws h.1, h.2⟩

/-- Writing a line of a source slot keeps the canonical form. -/
theorem memory_wf_writeRow {s : State} (i : Fin 12) (line : Nat) (row : List Pixel) (h : Memory.wf s = true) :
    Memory.wf (s.writeRow i line row) = true := by
  rw [memory_wf_iff] at h ⊢
  refine ⟨h.1, fun j => ?_, h.2.2⟩
  simp only [State.writeRow, State.updSource, pick_upd]
  split
  · exact rising_putAt line row (h.2.1 j)
  · exact h.2.1 j

/-- Writing a cell of an output slot keeps the canonical form. -/
theorem memory_wf_writeCell {s : State} (x : Fin 52) (cell : Nat) (code : Cell) (h : Memory.wf s = true) :
    Memory.wf (s.updOutput x fun y => { y with cells := putAt cell code y.cells }) = true := by
  rw [memory_wf_iff] at h ⊢
  refine ⟨h.1, h.2.1, fun y => ?_⟩
  simp only [State.updOutput, pick_upd]
  split
  · exact rising_putAt cell code (h.2.2 y)
  · exact h.2.2 y

/-- A written cell reads back, and every other cell of every output slot stands. -/
theorem readCell_writeCell (s : State) (x y : Fin 52) (cell other : Nat) (code : Cell) :
    readCell (s.updOutput x fun z => { z with cells := putAt cell code z.cells }) y other =
      if y = x ∧ other = cell then code else readCell s y other := by
  simp only [readCell, State.updOutput, pick_upd]
  by_cases hy : y = x
  · subst hy
    by_cases hc : other = cell
    · subst hc; simp
    · simp [hc, findAt_putAt_other]
  · simp [hy]

end Sys2Proof.Machine
end

