-- ==== Sys2Proof/Laws/State.lean ====
section
/-! SUPPORT. What each named update of the state leaves in each field: one lemma a field, each true by
unfolding, so that no later proof opens a record update. -/

namespace Sys2Proof.Machine

variable (s : State)

/-! ### `State.updPort` -/

@[simp] theorem State.updPort_pending (c : Fin 4) (f : Port → Port) :
    (s.updPort c f).pending = s.pending := rfl
@[simp] theorem State.updPort_epoch (c : Fin 4) (f : Port → Port) :
    (s.updPort c f).epoch = s.epoch := rfl
@[simp] theorem State.updPort_starting (c : Fin 4) (f : Port → Port) :
    (s.updPort c f).starting = s.starting := rfl
@[simp] theorem State.updPort_nodeAddress (c : Fin 4) (f : Port → Port) :
    (s.updPort c f).nodeAddress = s.nodeAddress := rfl
@[simp] theorem State.updPort_ports (c : Fin 4) (f : Port → Port) :
    (s.updPort c f).ports = upd s.ports c f := rfl
@[simp] theorem State.updPort_sourceSlots (c : Fin 4) (f : Port → Port) :
    (s.updPort c f).sourceSlots = s.sourceSlots := rfl
@[simp] theorem State.updPort_outputSlots (c : Fin 4) (f : Port → Port) :
    (s.updPort c f).outputSlots = s.outputSlots := rfl
@[simp] theorem State.updPort_tableStore (c : Fin 4) (f : Port → Port) :
    (s.updPort c f).tableStore = s.tableStore := rfl
@[simp] theorem State.updPort_descriptors (c : Fin 4) (f : Port → Port) :
    (s.updPort c f).descriptors = s.descriptors := rfl
@[simp] theorem State.updPort_window (c : Fin 4) (f : Port → Port) :
    (s.updPort c f).window = s.window := rfl
@[simp] theorem State.updPort_pins (c : Fin 4) (f : Port → Port) :
    (s.updPort c f).pins = s.pins := rfl
@[simp] theorem State.updPort_loadUnit (c : Fin 4) (f : Port → Port) :
    (s.updPort c f).loadUnit = s.loadUnit := rfl
@[simp] theorem State.updPort_views (c : Fin 4) (f : Port → Port) :
    (s.updPort c f).views = s.views := rfl
@[simp] theorem State.updPort_jobs (c : Fin 4) (f : Port → Port) :
    (s.updPort c f).jobs = s.jobs := rfl
@[simp] theorem State.updPort_flight (c : Fin 4) (f : Port → Port) :
    (s.updPort c f).flight = s.flight := rfl
@[simp] theorem State.updPort_records (c : Fin 4) (f : Port → Port) :
    (s.updPort c f).records = s.records := rfl
@[simp] theorem State.updPort_nextRecord (c : Fin 4) (f : Port → Port) :
    (s.updPort c f).nextRecord = s.nextRecord := rfl
@[simp] theorem State.updPort_timeTag (c : Fin 4) (f : Port → Port) :
    (s.updPort c f).timeTag = s.timeTag := rfl
@[simp] theorem State.updPort_resolution (c : Fin 4) (f : Port → Port) :
    (s.updPort c f).resolution = s.resolution := rfl
@[simp] theorem State.updPort_forwardQueue (c : Fin 4) (f : Port → Port) :
    (s.updPort c f).forwardQueue = s.forwardQueue := rfl
@[simp] theorem State.updPort_transmission (c : Fin 4) (f : Port → Port) :
    (s.updPort c f).transmission = s.transmission := rfl
@[simp] theorem State.updPort_paused (c : Fin 4) (f : Port → Port) :
    (s.updPort c f).paused = s.paused := rfl
@[simp] theorem State.updPort_uplinkPort (c : Fin 4) (f : Port → Port) :
    (s.updPort c f).uplinkPort = s.uplinkPort := rfl
@[simp] theorem State.updPort_relayPort (c : Fin 4) (f : Port → Port) :
    (s.updPort c f).relayPort = s.relayPort := rfl
@[simp] theorem State.updPort_commandBuffer (c : Fin 4) (f : Port → Port) :
    (s.updPort c f).commandBuffer = s.commandBuffer := rfl
@[simp] theorem State.updPort_responses (c : Fin 4) (f : Port → Port) :
    (s.updPort c f).responses = s.responses := rfl
@[simp] theorem State.updPort_notices (c : Fin 4) (f : Port → Port) :
    (s.updPort c f).notices = s.notices := rfl
@[simp] theorem State.updPort_sticky (c : Fin 4) (f : Port → Port) :
    (s.updPort c f).sticky = s.sticky := rfl
@[simp] theorem State.updPort_noticeMask (c : Fin 4) (f : Port → Port) :
    (s.updPort c f).noticeMask = s.noticeMask := rfl
@[simp] theorem State.updPort_interfaceCounters (c : Fin 4) (f : Port → Port) :
    (s.updPort c f).interfaceCounters = s.interfaceCounters := rfl
@[simp] theorem State.updPort_relayBuffer (c : Fin 4) (f : Port → Port) :
    (s.updPort c f).relayBuffer = s.relayBuffer := rfl
@[simp] theorem State.updPort_relayInterval (c : Fin 4) (f : Port → Port) :
    (s.updPort c f).relayInterval = s.relayInterval := rfl

/-! ### `State.updSource` -/

@[simp] theorem State.updSource_pending (i : Fin 12) (f : SourceSlot → SourceSlot) :
    (s.updSource i f).pending = s.pending := rfl
@[simp] theorem State.updSource_epoch (i : Fin 12) (f : SourceSlot → SourceSlot) :
    (s.updSource i f).epoch = s.epoch := rfl
@[simp] theorem State.updSource_starting (i : Fin 12) (f : SourceSlot → SourceSlot) :
    (s.updSource i f).starting = s.starting := rfl
@[simp] theorem State.updSource_nodeAddress (i : Fin 12) (f : SourceSlot → SourceSlot) :
    (s.updSource i f).nodeAddress = s.nodeAddress := rfl
@[simp] theorem State.updSource_ports (i : Fin 12) (f : SourceSlot → SourceSlot) :
    (s.updSource i f).ports = s.ports := rfl
@[simp] theorem State.updSource_sourceSlots (i : Fin 12) (f : SourceSlot → SourceSlot) :
    (s.updSource i f).sourceSlots = upd s.sourceSlots i f := rfl
@[simp] theorem State.updSource_outputSlots (i : Fin 12) (f : SourceSlot → SourceSlot) :
    (s.updSource i f).outputSlots = s.outputSlots := rfl
@[simp] theorem State.updSource_tableStore (i : Fin 12) (f : SourceSlot → SourceSlot) :
    (s.updSource i f).tableStore = s.tableStore := rfl
@[simp] theorem State.updSource_descriptors (i : Fin 12) (f : SourceSlot → SourceSlot) :
    (s.updSource i f).descriptors = s.descriptors := rfl
@[simp] theorem State.updSource_window (i : Fin 12) (f : SourceSlot → SourceSlot) :
    (s.updSource i f).window = s.window := rfl
@[simp] theorem State.updSource_pins (i : Fin 12) (f : SourceSlot → SourceSlot) :
    (s.updSource i f).pins = s.pins := rfl
@[simp] theorem State.updSource_loadUnit (i : Fin 12) (f : SourceSlot → SourceSlot) :
    (s.updSource i f).loadUnit = s.loadUnit := rfl
@[simp] theorem State.updSource_views (i : Fin 12) (f : SourceSlot → SourceSlot) :
    (s.updSource i f).views = s.views := rfl
@[simp] theorem State.updSource_jobs (i : Fin 12) (f : SourceSlot → SourceSlot) :
    (s.updSource i f).jobs = s.jobs := rfl
@[simp] theorem State.updSource_flight (i : Fin 12) (f : SourceSlot → SourceSlot) :
    (s.updSource i f).flight = s.flight := rfl
@[simp] theorem State.updSource_records (i : Fin 12) (f : SourceSlot → SourceSlot) :
    (s.updSource i f).records = s.records := rfl
@[simp] theorem State.updSource_nextRecord (i : Fin 12) (f : SourceSlot → SourceSlot) :
    (s.updSource i f).nextRecord = s.nextRecord := rfl
@[simp] theorem State.updSource_timeTag (i : Fin 12) (f : SourceSlot → SourceSlot) :
    (s.updSource i f).timeTag = s.timeTag := rfl
@[simp] theorem State.updSource_resolution (i : Fin 12) (f : SourceSlot → SourceSlot) :
    (s.updSource i f).resolution = s.resolution := rfl
@[simp] theorem State.updSource_forwardQueue (i : Fin 12) (f : SourceSlot → SourceSlot) :
    (s.updSource i f).forwardQueue = s.forwardQueue := rfl
@[simp] theorem State.updSource_transmission (i : Fin 12) (f : SourceSlot → SourceSlot) :
    (s.updSource i f).transmission = s.transmission := rfl
@[simp] theorem State.updSource_paused (i : Fin 12) (f : SourceSlot → SourceSlot) :
    (s.updSource i f).paused = s.paused := rfl
@[simp] theorem State.updSource_uplinkPort (i : Fin 12) (f : SourceSlot → SourceSlot) :
    (s.updSource i f).uplinkPort = s.uplinkPort := rfl
@[simp] theorem State.updSource_relayPort (i : Fin 12) (f : SourceSlot → SourceSlot) :
    (s.updSource i f).relayPort = s.relayPort := rfl
@[simp] theorem State.updSource_commandBuffer (i : Fin 12) (f : SourceSlot → SourceSlot) :
    (s.updSource i f).commandBuffer = s.commandBuffer := rfl
@[simp] theorem State.updSource_responses (i : Fin 12) (f : SourceSlot → SourceSlot) :
    (s.updSource i f).responses = s.responses := rfl
@[simp] theorem State.updSource_notices (i : Fin 12) (f : SourceSlot → SourceSlot) :
    (s.updSource i f).notices = s.notices := rfl
@[simp] theorem State.updSource_sticky (i : Fin 12) (f : SourceSlot → SourceSlot) :
    (s.updSource i f).sticky = s.sticky := rfl
@[simp] theorem State.updSource_noticeMask (i : Fin 12) (f : SourceSlot → SourceSlot) :
    (s.updSource i f).noticeMask = s.noticeMask := rfl
@[simp] theorem State.updSource_interfaceCounters (i : Fin 12) (f : SourceSlot → SourceSlot) :
    (s.updSource i f).interfaceCounters = s.interfaceCounters := rfl
@[simp] theorem State.updSource_relayBuffer (i : Fin 12) (f : SourceSlot → SourceSlot) :
    (s.updSource i f).relayBuffer = s.relayBuffer := rfl
@[simp] theorem State.updSource_relayInterval (i : Fin 12) (f : SourceSlot → SourceSlot) :
    (s.updSource i f).relayInterval = s.relayInterval := rfl

/-! ### `State.updOutput` -/

@[simp] theorem State.updOutput_pending (i : Fin 52) (f : OutputSlot → OutputSlot) :
    (s.updOutput i f).pending = s.pending := rfl
@[simp] theorem State.updOutput_epoch (i : Fin 52) (f : OutputSlot → OutputSlot) :
    (s.updOutput i f).epoch = s.epoch := rfl
@[simp] theorem State.updOutput_starting (i : Fin 52) (f : OutputSlot → OutputSlot) :
    (s.updOutput i f).starting = s.starting := rfl
@[simp] theorem State.updOutput_nodeAddress (i : Fin 52) (f : OutputSlot → OutputSlot) :
    (s.updOutput i f).nodeAddress = s.nodeAddress := rfl
@[simp] theorem State.updOutput_ports (i : Fin 52) (f : OutputSlot → OutputSlot) :
    (s.updOutput i f).ports = s.ports := rfl
@[simp] theorem State.updOutput_sourceSlots (i : Fin 52) (f : OutputSlot → OutputSlot) :
    (s.updOutput i f).sourceSlots = s.sourceSlots := rfl
@[simp] theorem State.updOutput_outputSlots (i : Fin 52) (f : OutputSlot → OutputSlot) :
    (s.updOutput i f).outputSlots = upd s.outputSlots i f := rfl
@[simp] theorem State.updOutput_tableStore (i : Fin 52) (f : OutputSlot → OutputSlot) :
    (s.updOutput i f).tableStore = s.tableStore := rfl
@[simp] theorem State.updOutput_descriptors (i : Fin 52) (f : OutputSlot → OutputSlot) :
    (s.updOutput i f).descriptors = s.descriptors := rfl
@[simp] theorem State.updOutput_window (i : Fin 52) (f : OutputSlot → OutputSlot) :
    (s.updOutput i f).window = s.window := rfl
@[simp] theorem State.updOutput_pins (i : Fin 52) (f : OutputSlot → OutputSlot) :
    (s.updOutput i f).pins = s.pins := rfl
@[simp] theorem State.updOutput_loadUnit (i : Fin 52) (f : OutputSlot → OutputSlot) :
    (s.updOutput i f).loadUnit = s.loadUnit := rfl
@[simp] theorem State.updOutput_views (i : Fin 52) (f : OutputSlot → OutputSlot) :
    (s.updOutput i f).views = s.views := rfl
@[simp] theorem State.updOutput_jobs (i : Fin 52) (f : OutputSlot → OutputSlot) :
    (s.updOutput i f).jobs = s.jobs := rfl
@[simp] theorem State.updOutput_flight (i : Fin 52) (f : OutputSlot → OutputSlot) :
    (s.updOutput i f).flight = s.flight := rfl
@[simp] theorem State.updOutput_records (i : Fin 52) (f : OutputSlot → OutputSlot) :
    (s.updOutput i f).records = s.records := rfl
@[simp] theorem State.updOutput_nextRecord (i : Fin 52) (f : OutputSlot → OutputSlot) :
    (s.updOutput i f).nextRecord = s.nextRecord := rfl
@[simp] theorem State.updOutput_timeTag (i : Fin 52) (f : OutputSlot → OutputSlot) :
    (s.updOutput i f).timeTag = s.timeTag := rfl
@[simp] theorem State.updOutput_resolution (i : Fin 52) (f : OutputSlot → OutputSlot) :
    (s.updOutput i f).resolution = s.resolution := rfl
@[simp] theorem State.updOutput_forwardQueue (i : Fin 52) (f : OutputSlot → OutputSlot) :
    (s.updOutput i f).forwardQueue = s.forwardQueue := rfl
@[simp] theorem State.updOutput_transmission (i : Fin 52) (f : OutputSlot → OutputSlot) :
    (s.updOutput i f).transmission = s.transmission := rfl
@[simp] theorem State.updOutput_paused (i : Fin 52) (f : OutputSlot → OutputSlot) :
    (s.updOutput i f).paused = s.paused := rfl
@[simp] theorem State.updOutput_uplinkPort (i : Fin 52) (f : OutputSlot → OutputSlot) :
    (s.updOutput i f).uplinkPort = s.uplinkPort := rfl
@[simp] theorem State.updOutput_relayPort (i : Fin 52) (f : OutputSlot → OutputSlot) :
    (s.updOutput i f).relayPort = s.relayPort := rfl
@[simp] theorem State.updOutput_commandBuffer (i : Fin 52) (f : OutputSlot → OutputSlot) :
    (s.updOutput i f).commandBuffer = s.commandBuffer := rfl
@[simp] theorem State.updOutput_responses (i : Fin 52) (f : OutputSlot → OutputSlot) :
    (s.updOutput i f).responses = s.responses := rfl
@[simp] theorem State.updOutput_notices (i : Fin 52) (f : OutputSlot → OutputSlot) :
    (s.updOutput i f).notices = s.notices := rfl
@[simp] theorem State.updOutput_sticky (i : Fin 52) (f : OutputSlot → OutputSlot) :
    (s.updOutput i f).sticky = s.sticky := rfl
@[simp] theorem State.updOutput_noticeMask (i : Fin 52) (f : OutputSlot → OutputSlot) :
    (s.updOutput i f).noticeMask = s.noticeMask := rfl
@[simp] theorem State.updOutput_interfaceCounters (i : Fin 52) (f : OutputSlot → OutputSlot) :
    (s.updOutput i f).interfaceCounters = s.interfaceCounters := rfl
@[simp] theorem State.updOutput_relayBuffer (i : Fin 52) (f : OutputSlot → OutputSlot) :
    (s.updOutput i f).relayBuffer = s.relayBuffer := rfl
@[simp] theorem State.updOutput_relayInterval (i : Fin 52) (f : OutputSlot → OutputSlot) :
    (s.updOutput i f).relayInterval = s.relayInterval := rfl

/-! ### `State.updDescriptor` -/

@[simp] theorem State.updDescriptor_pending (d : Fin 64) (f : Descriptor → Descriptor) :
    (s.updDescriptor d f).pending = s.pending := rfl
@[simp] theorem State.updDescriptor_epoch (d : Fin 64) (f : Descriptor → Descriptor) :
    (s.updDescriptor d f).epoch = s.epoch := rfl
@[simp] theorem State.updDescriptor_starting (d : Fin 64) (f : Descriptor → Descriptor) :
    (s.updDescriptor d f).starting = s.starting := rfl
@[simp] theorem State.updDescriptor_nodeAddress (d : Fin 64) (f : Descriptor → Descriptor) :
    (s.updDescriptor d f).nodeAddress = s.nodeAddress := rfl
@[simp] theorem State.updDescriptor_ports (d : Fin 64) (f : Descriptor → Descriptor) :
    (s.updDescriptor d f).ports = s.ports := rfl
@[simp] theorem State.updDescriptor_sourceSlots (d : Fin 64) (f : Descriptor → Descriptor) :
    (s.updDescriptor d f).sourceSlots = s.sourceSlots := rfl
@[simp] theorem State.updDescriptor_outputSlots (d : Fin 64) (f : Descriptor → Descriptor) :
    (s.updDescriptor d f).outputSlots = s.outputSlots := rfl
@[simp] theorem State.updDescriptor_tableStore (d : Fin 64) (f : Descriptor → Descriptor) :
    (s.updDescriptor d f).tableStore = s.tableStore := rfl
@[simp] theorem State.updDescriptor_descriptors (d : Fin 64) (f : Descriptor → Descriptor) :
    (s.updDescriptor d f).descriptors = upd s.descriptors d f := rfl
@[simp] theorem State.updDescriptor_window (d : Fin 64) (f : Descriptor → Descriptor) :
    (s.updDescriptor d f).window = s.window := rfl
@[simp] theorem State.updDescriptor_pins (d : Fin 64) (f : Descriptor → Descriptor) :
    (s.updDescriptor d f).pins = s.pins := rfl
@[simp] theorem State.updDescriptor_loadUnit (d : Fin 64) (f : Descriptor → Descriptor) :
    (s.updDescriptor d f).loadUnit = s.loadUnit := rfl
@[simp] theorem State.updDescriptor_views (d : Fin 64) (f : Descriptor → Descriptor) :
    (s.updDescriptor d f).views = s.views := rfl
@[simp] theorem State.updDescriptor_jobs (d : Fin 64) (f : Descriptor → Descriptor) :
    (s.updDescriptor d f).jobs = s.jobs := rfl
@[simp] theorem State.updDescriptor_flight (d : Fin 64) (f : Descriptor → Descriptor) :
    (s.updDescriptor d f).flight = s.flight := rfl
@[simp] theorem State.updDescriptor_records (d : Fin 64) (f : Descriptor → Descriptor) :
    (s.updDescriptor d f).records = s.records := rfl
@[simp] theorem State.updDescriptor_nextRecord (d : Fin 64) (f : Descriptor → Descriptor) :
    (s.updDescriptor d f).nextRecord = s.nextRecord := rfl
@[simp] theorem State.updDescriptor_timeTag (d : Fin 64) (f : Descriptor → Descriptor) :
    (s.updDescriptor d f).timeTag = s.timeTag := rfl
@[simp] theorem State.updDescriptor_resolution (d : Fin 64) (f : Descriptor → Descriptor) :
    (s.updDescriptor d f).resolution = s.resolution := rfl
@[simp] theorem State.updDescriptor_forwardQueue (d : Fin 64) (f : Descriptor → Descriptor) :
    (s.updDescriptor d f).forwardQueue = s.forwardQueue := rfl
@[simp] theorem State.updDescriptor_transmission (d : Fin 64) (f : Descriptor → Descriptor) :
    (s.updDescriptor d f).transmission = s.transmission := rfl
@[simp] theorem State.updDescriptor_paused (d : Fin 64) (f : Descriptor → Descriptor) :
    (s.updDescriptor d f).paused = s.paused := rfl
@[simp] theorem State.updDescriptor_uplinkPort (d : Fin 64) (f : Descriptor → Descriptor) :
    (s.updDescriptor d f).uplinkPort = s.uplinkPort := rfl
@[simp] theorem State.updDescriptor_relayPort (d : Fin 64) (f : Descriptor → Descriptor) :
    (s.updDescriptor d f).relayPort = s.relayPort := rfl
@[simp] theorem State.updDescriptor_commandBuffer (d : Fin 64) (f : Descriptor → Descriptor) :
    (s.updDescriptor d f).commandBuffer = s.commandBuffer := rfl
@[simp] theorem State.updDescriptor_responses (d : Fin 64) (f : Descriptor → Descriptor) :
    (s.updDescriptor d f).responses = s.responses := rfl
@[simp] theorem State.updDescriptor_notices (d : Fin 64) (f : Descriptor → Descriptor) :
    (s.updDescriptor d f).notices = s.notices := rfl
@[simp] theorem State.updDescriptor_sticky (d : Fin 64) (f : Descriptor → Descriptor) :
    (s.updDescriptor d f).sticky = s.sticky := rfl
@[simp] theorem State.updDescriptor_noticeMask (d : Fin 64) (f : Descriptor → Descriptor) :
    (s.updDescriptor d f).noticeMask = s.noticeMask := rfl
@[simp] theorem State.updDescriptor_interfaceCounters (d : Fin 64) (f : Descriptor → Descriptor) :
    (s.updDescriptor d f).interfaceCounters = s.interfaceCounters := rfl
@[simp] theorem State.updDescriptor_relayBuffer (d : Fin 64) (f : Descriptor → Descriptor) :
    (s.updDescriptor d f).relayBuffer = s.relayBuffer := rfl
@[simp] theorem State.updDescriptor_relayInterval (d : Fin 64) (f : Descriptor → Descriptor) :
    (s.updDescriptor d f).relayInterval = s.relayInterval := rfl

/-! ### `State.updView` -/

@[simp] theorem State.updView_pending (v : Fin 16) (f : View → View) :
    (s.updView v f).pending = s.pending := rfl
@[simp] theorem State.updView_epoch (v : Fin 16) (f : View → View) :
    (s.updView v f).epoch = s.epoch := rfl
@[simp] theorem State.updView_starting (v : Fin 16) (f : View → View) :
    (s.updView v f).starting = s.starting := rfl
@[simp] theorem State.updView_nodeAddress (v : Fin 16) (f : View → View) :
    (s.updView v f).nodeAddress = s.nodeAddress := rfl
@[simp] theorem State.updView_ports (v : Fin 16) (f : View → View) :
    (s.updView v f).ports = s.ports := rfl
@[simp] theorem State.updView_sourceSlots (v : Fin 16) (f : View → View) :
    (s.updView v f).sourceSlots = s.sourceSlots := rfl
@[simp] theorem State.updView_outputSlots (v : Fin 16) (f : View → View) :
    (s.updView v f).outputSlots = s.outputSlots := rfl
@[simp] theorem State.updView_tableStore (v : Fin 16) (f : View → View) :
    (s.updView v f).tableStore = s.tableStore := rfl
@[simp] theorem State.updView_descriptors (v : Fin 16) (f : View → View) :
    (s.updView v f).descriptors = s.descriptors := rfl
@[simp] theorem State.updView_window (v : Fin 16) (f : View → View) :
    (s.updView v f).window = s.window := rfl
@[simp] theorem State.updView_pins (v : Fin 16) (f : View → View) :
    (s.updView v f).pins = s.pins := rfl
@[simp] theorem State.updView_loadUnit (v : Fin 16) (f : View → View) :
    (s.updView v f).loadUnit = s.loadUnit := rfl
@[simp] theorem State.updView_views (v : Fin 16) (f : View → View) :
    (s.updView v f).views = upd s.views v f := rfl
@[simp] theorem State.updView_jobs (v : Fin 16) (f : View → View) :
    (s.updView v f).jobs = s.jobs := rfl
@[simp] theorem State.updView_flight (v : Fin 16) (f : View → View) :
    (s.updView v f).flight = s.flight := rfl
@[simp] theorem State.updView_records (v : Fin 16) (f : View → View) :
    (s.updView v f).records = s.records := rfl
@[simp] theorem State.updView_nextRecord (v : Fin 16) (f : View → View) :
    (s.updView v f).nextRecord = s.nextRecord := rfl
@[simp] theorem State.updView_timeTag (v : Fin 16) (f : View → View) :
    (s.updView v f).timeTag = s.timeTag := rfl
@[simp] theorem State.updView_resolution (v : Fin 16) (f : View → View) :
    (s.updView v f).resolution = s.resolution := rfl
@[simp] theorem State.updView_forwardQueue (v : Fin 16) (f : View → View) :
    (s.updView v f).forwardQueue = s.forwardQueue := rfl
@[simp] theorem State.updView_transmission (v : Fin 16) (f : View → View) :
    (s.updView v f).transmission = s.transmission := rfl
@[simp] theorem State.updView_paused (v : Fin 16) (f : View → View) :
    (s.updView v f).paused = s.paused := rfl
@[simp] theorem State.updView_uplinkPort (v : Fin 16) (f : View → View) :
    (s.updView v f).uplinkPort = s.uplinkPort := rfl
@[simp] theorem State.updView_relayPort (v : Fin 16) (f : View → View) :
    (s.updView v f).relayPort = s.relayPort := rfl
@[simp] theorem State.updView_commandBuffer (v : Fin 16) (f : View → View) :
    (s.updView v f).commandBuffer = s.commandBuffer := rfl
@[simp] theorem State.updView_responses (v : Fin 16) (f : View → View) :
    (s.updView v f).responses = s.responses := rfl
@[simp] theorem State.updView_notices (v : Fin 16) (f : View → View) :
    (s.updView v f).notices = s.notices := rfl
@[simp] theorem State.updView_sticky (v : Fin 16) (f : View → View) :
    (s.updView v f).sticky = s.sticky := rfl
@[simp] theorem State.updView_noticeMask (v : Fin 16) (f : View → View) :
    (s.updView v f).noticeMask = s.noticeMask := rfl
@[simp] theorem State.updView_interfaceCounters (v : Fin 16) (f : View → View) :
    (s.updView v f).interfaceCounters = s.interfaceCounters := rfl
@[simp] theorem State.updView_relayBuffer (v : Fin 16) (f : View → View) :
    (s.updView v f).relayBuffer = s.relayBuffer := rfl
@[simp] theorem State.updView_relayInterval (v : Fin 16) (f : View → View) :
    (s.updView v f).relayInterval = s.relayInterval := rfl

/-! ### `State.updRecord` -/

@[simp] theorem State.updRecord_pending (n : RecordNumber) (f : Record → Record) :
    (s.updRecord n f).pending = s.pending := rfl
@[simp] theorem State.updRecord_epoch (n : RecordNumber) (f : Record → Record) :
    (s.updRecord n f).epoch = s.epoch := rfl
@[simp] theorem State.updRecord_starting (n : RecordNumber) (f : Record → Record) :
    (s.updRecord n f).starting = s.starting := rfl
@[simp] theorem State.updRecord_nodeAddress (n : RecordNumber) (f : Record → Record) :
    (s.updRecord n f).nodeAddress = s.nodeAddress := rfl
@[simp] theorem State.updRecord_ports (n : RecordNumber) (f : Record → Record) :
    (s.updRecord n f).ports = s.ports := rfl
@[simp] theorem State.updRecord_sourceSlots (n : RecordNumber) (f : Record → Record) :
    (s.updRecord n f).sourceSlots = s.sourceSlots := rfl
@[simp] theorem State.updRecord_outputSlots (n : RecordNumber) (f : Record → Record) :
    (s.updRecord n f).outputSlots = s.outputSlots := rfl
@[simp] theorem State.updRecord_tableStore (n : RecordNumber) (f : Record → Record) :
    (s.updRecord n f).tableStore = s.tableStore := rfl
@[simp] theorem State.updRecord_descriptors (n : RecordNumber) (f : Record → Record) :
    (s.updRecord n f).descriptors = s.descriptors := rfl
@[simp] theorem State.updRecord_window (n : RecordNumber) (f : Record → Record) :
    (s.updRecord n f).window = s.window := rfl
@[simp] theorem State.updRecord_pins (n : RecordNumber) (f : Record → Record) :
    (s.updRecord n f).pins = s.pins := rfl
@[simp] theorem State.updRecord_loadUnit (n : RecordNumber) (f : Record → Record) :
    (s.updRecord n f).loadUnit = s.loadUnit := rfl
@[simp] theorem State.updRecord_views (n : RecordNumber) (f : Record → Record) :
    (s.updRecord n f).views = s.views := rfl
@[simp] theorem State.updRecord_jobs (n : RecordNumber) (f : Record → Record) :
    (s.updRecord n f).jobs = s.jobs := rfl
@[simp] theorem State.updRecord_flight (n : RecordNumber) (f : Record → Record) :
    (s.updRecord n f).flight = s.flight := rfl
@[simp] theorem State.updRecord_records (n : RecordNumber) (f : Record → Record) :
    (s.updRecord n f).records = s.records.map fun r => if r.number = n then f r else r := rfl
@[simp] theorem State.updRecord_nextRecord (n : RecordNumber) (f : Record → Record) :
    (s.updRecord n f).nextRecord = s.nextRecord := rfl
@[simp] theorem State.updRecord_timeTag (n : RecordNumber) (f : Record → Record) :
    (s.updRecord n f).timeTag = s.timeTag := rfl
@[simp] theorem State.updRecord_resolution (n : RecordNumber) (f : Record → Record) :
    (s.updRecord n f).resolution = s.resolution := rfl
@[simp] theorem State.updRecord_forwardQueue (n : RecordNumber) (f : Record → Record) :
    (s.updRecord n f).forwardQueue = s.forwardQueue := rfl
@[simp] theorem State.updRecord_transmission (n : RecordNumber) (f : Record → Record) :
    (s.updRecord n f).transmission = s.transmission := rfl
@[simp] theorem State.updRecord_paused (n : RecordNumber) (f : Record → Record) :
    (s.updRecord n f).paused = s.paused := rfl
@[simp] theorem State.updRecord_uplinkPort (n : RecordNumber) (f : Record → Record) :
    (s.updRecord n f).uplinkPort = s.uplinkPort := rfl
@[simp] theorem State.updRecord_relayPort (n : RecordNumber) (f : Record → Record) :
    (s.updRecord n f).relayPort = s.relayPort := rfl
@[simp] theorem State.updRecord_commandBuffer (n : RecordNumber) (f : Record → Record) :
    (s.updRecord n f).commandBuffer = s.commandBuffer := rfl
@[simp] theorem State.updRecord_responses (n : RecordNumber) (f : Record → Record) :
    (s.updRecord n f).responses = s.responses := rfl
@[simp] theorem State.updRecord_notices (n : RecordNumber) (f : Record → Record) :
    (s.updRecord n f).notices = s.notices := rfl
@[simp] theorem State.updRecord_sticky (n : RecordNumber) (f : Record → Record) :
    (s.updRecord n f).sticky = s.sticky := rfl
@[simp] theorem State.updRecord_noticeMask (n : RecordNumber) (f : Record → Record) :
    (s.updRecord n f).noticeMask = s.noticeMask := rfl
@[simp] theorem State.updRecord_interfaceCounters (n : RecordNumber) (f : Record → Record) :
    (s.updRecord n f).interfaceCounters = s.interfaceCounters := rfl
@[simp] theorem State.updRecord_relayBuffer (n : RecordNumber) (f : Record → Record) :
    (s.updRecord n f).relayBuffer = s.relayBuffer := rfl
@[simp] theorem State.updRecord_relayInterval (n : RecordNumber) (f : Record → Record) :
    (s.updRecord n f).relayInterval = s.relayInterval := rfl

/-! ### `State.setSticky` -/

@[simp] theorem State.setSticky_pending (f : StickyFlag) :
    (s.setSticky f).pending = s.pending := rfl
@[simp] theorem State.setSticky_epoch (f : StickyFlag) :
    (s.setSticky f).epoch = s.epoch := rfl
@[simp] theorem State.setSticky_starting (f : StickyFlag) :
    (s.setSticky f).starting = s.starting := rfl
@[simp] theorem State.setSticky_nodeAddress (f : StickyFlag) :
    (s.setSticky f).nodeAddress = s.nodeAddress := rfl
@[simp] theorem State.setSticky_ports (f : StickyFlag) :
    (s.setSticky f).ports = s.ports := rfl
@[simp] theorem State.setSticky_sourceSlots (f : StickyFlag) :
    (s.setSticky f).sourceSlots = s.sourceSlots := rfl
@[simp] theorem State.setSticky_outputSlots (f : StickyFlag) :
    (s.setSticky f).outputSlots = s.outputSlots := rfl
@[simp] theorem State.setSticky_tableStore (f : StickyFlag) :
    (s.setSticky f).tableStore = s.tableStore := rfl
@[simp] theorem State.setSticky_descriptors (f : StickyFlag) :
    (s.setSticky f).descriptors = s.descriptors := rfl
@[simp] theorem State.setSticky_window (f : StickyFlag) :
    (s.setSticky f).window = s.window := rfl
@[simp] theorem State.setSticky_pins (f : StickyFlag) :
    (s.setSticky f).pins = s.pins := rfl
@[simp] theorem State.setSticky_loadUnit (f : StickyFlag) :
    (s.setSticky f).loadUnit = s.loadUnit := rfl
@[simp] theorem State.setSticky_views (f : StickyFlag) :
    (s.setSticky f).views = s.views := rfl
@[simp] theorem State.setSticky_jobs (f : StickyFlag) :
    (s.setSticky f).jobs = s.jobs := rfl
@[simp] theorem State.setSticky_flight (f : StickyFlag) :
    (s.setSticky f).flight = s.flight := rfl
@[simp] theorem State.setSticky_records (f : StickyFlag) :
    (s.setSticky f).records = s.records := rfl
@[simp] theorem State.setSticky_nextRecord (f : StickyFlag) :
    (s.setSticky f).nextRecord = s.nextRecord := rfl
@[simp] theorem State.setSticky_timeTag (f : StickyFlag) :
    (s.setSticky f).timeTag = s.timeTag := rfl
@[simp] theorem State.setSticky_resolution (f : StickyFlag) :
    (s.setSticky f).resolution = s.resolution := rfl
@[simp] theorem State.setSticky_forwardQueue (f : StickyFlag) :
    (s.setSticky f).forwardQueue = s.forwardQueue := rfl
@[simp] theorem State.setSticky_transmission (f : StickyFlag) :
    (s.setSticky f).transmission = s.transmission := rfl
@[simp] theorem State.setSticky_paused (f : StickyFlag) :
    (s.setSticky f).paused = s.paused := rfl
@[simp] theorem State.setSticky_uplinkPort (f : StickyFlag) :
    (s.setSticky f).uplinkPort = s.uplinkPort := rfl
@[simp] theorem State.setSticky_relayPort (f : StickyFlag) :
    (s.setSticky f).relayPort = s.relayPort := rfl
@[simp] theorem State.setSticky_commandBuffer (f : StickyFlag) :
    (s.setSticky f).commandBuffer = s.commandBuffer := rfl
@[simp] theorem State.setSticky_responses (f : StickyFlag) :
    (s.setSticky f).responses = s.responses := rfl
@[simp] theorem State.setSticky_notices (f : StickyFlag) :
    (s.setSticky f).notices = s.notices := rfl
@[simp] theorem State.setSticky_sticky (f : StickyFlag) :
    (s.setSticky f).sticky = withBit s.sticky f.bit := rfl
@[simp] theorem State.setSticky_noticeMask (f : StickyFlag) :
    (s.setSticky f).noticeMask = s.noticeMask := rfl
@[simp] theorem State.setSticky_interfaceCounters (f : StickyFlag) :
    (s.setSticky f).interfaceCounters = s.interfaceCounters := rfl
@[simp] theorem State.setSticky_relayBuffer (f : StickyFlag) :
    (s.setSticky f).relayBuffer = s.relayBuffer := rfl
@[simp] theorem State.setSticky_relayInterval (f : StickyFlag) :
    (s.setSticky f).relayInterval = s.relayInterval := rfl

/-! ### `State.countInterface` -/

@[simp] theorem State.countInterface_pending (f : InterfaceCounters → InterfaceCounters) :
    (s.countInterface f).pending = s.pending := rfl
@[simp] theorem State.countInterface_epoch (f : InterfaceCounters → InterfaceCounters) :
    (s.countInterface f).epoch = s.epoch := rfl
@[simp] theorem State.countInterface_starting (f : InterfaceCounters → InterfaceCounters) :
    (s.countInterface f).starting = s.starting := rfl
@[simp] theorem State.countInterface_nodeAddress (f : InterfaceCounters → InterfaceCounters) :
    (s.countInterface f).nodeAddress = s.nodeAddress := rfl
@[simp] theorem State.countInterface_ports (f : InterfaceCounters → InterfaceCounters) :
    (s.countInterface f).ports = s.ports := rfl
@[simp] theorem State.countInterface_sourceSlots (f : InterfaceCounters → InterfaceCounters) :
    (s.countInterface f).sourceSlots = s.sourceSlots := rfl
@[simp] theorem State.countInterface_outputSlots (f : InterfaceCounters → InterfaceCounters) :
    (s.countInterface f).outputSlots = s.outputSlots := rfl
@[simp] theorem State.countInterface_tableStore (f : InterfaceCounters → InterfaceCounters) :
    (s.countInterface f).tableStore = s.tableStore := rfl
@[simp] theorem State.countInterface_descriptors (f : InterfaceCounters → InterfaceCounters) :
    (s.countInterface f).descriptors = s.descriptors := rfl
@[simp] theorem State.countInterface_window (f : InterfaceCounters → InterfaceCounters) :
    (s.countInterface f).window = s.window := rfl
@[simp] theorem State.countInterface_pins (f : InterfaceCounters → InterfaceCounters) :
    (s.countInterface f).pins = s.pins := rfl
@[simp] theorem State.countInterface_loadUnit (f : InterfaceCounters → InterfaceCounters) :
    (s.countInterface f).loadUnit = s.loadUnit := rfl
@[simp] theorem State.countInterface_views (f : InterfaceCounters → InterfaceCounters) :
    (s.countInterface f).views = s.views := rfl
@[simp] theorem State.countInterface_jobs (f : InterfaceCounters → InterfaceCounters) :
    (s.countInterface f).jobs = s.jobs := rfl
@[simp] theorem State.countInterface_flight (f : InterfaceCounters → InterfaceCounters) :
    (s.countInterface f).flight = s.flight := rfl
@[simp] theorem State.countInterface_records (f : InterfaceCounters → InterfaceCounters) :
    (s.countInterface f).records = s.records := rfl
@[simp] theorem State.countInterface_nextRecord (f : InterfaceCounters → InterfaceCounters) :
    (s.countInterface f).nextRecord = s.nextRecord := rfl
@[simp] theorem State.countInterface_timeTag (f : InterfaceCounters → InterfaceCounters) :
    (s.countInterface f).timeTag = s.timeTag := rfl
@[simp] theorem State.countInterface_resolution (f : InterfaceCounters → InterfaceCounters) :
    (s.countInterface f).resolution = s.resolution := rfl
@[simp] theorem State.countInterface_forwardQueue (f : InterfaceCounters → InterfaceCounters) :
    (s.countInterface f).forwardQueue = s.forwardQueue := rfl
@[simp] theorem State.countInterface_transmission (f : InterfaceCounters → InterfaceCounters) :
    (s.countInterface f).transmission = s.transmission := rfl
@[simp] theorem State.countInterface_paused (f : InterfaceCounters → InterfaceCounters) :
    (s.countInterface f).paused = s.paused := rfl
@[simp] theorem State.countInterface_uplinkPort (f : InterfaceCounters → InterfaceCounters) :
    (s.countInterface f).uplinkPort = s.uplinkPort := rfl
@[simp] theorem State.countInterface_relayPort (f : InterfaceCounters → InterfaceCounters) :
    (s.countInterface f).relayPort = s.relayPort := rfl
@[simp] theorem State.countInterface_commandBuffer (f : InterfaceCounters → InterfaceCounters) :
    (s.countInterface f).commandBuffer = s.commandBuffer := rfl
@[simp] theorem State.countInterface_responses (f : InterfaceCounters → InterfaceCounters) :
    (s.countInterface f).responses = s.responses := rfl
@[simp] theorem State.countInterface_notices (f : InterfaceCounters → InterfaceCounters) :
    (s.countInterface f).notices = s.notices := rfl
@[simp] theorem State.countInterface_sticky (f : InterfaceCounters → InterfaceCounters) :
    (s.countInterface f).sticky = s.sticky := rfl
@[simp] theorem State.countInterface_noticeMask (f : InterfaceCounters → InterfaceCounters) :
    (s.countInterface f).noticeMask = s.noticeMask := rfl
@[simp] theorem State.countInterface_interfaceCounters (f : InterfaceCounters → InterfaceCounters) :
    (s.countInterface f).interfaceCounters = f s.interfaceCounters := rfl
@[simp] theorem State.countInterface_relayBuffer (f : InterfaceCounters → InterfaceCounters) :
    (s.countInterface f).relayBuffer = s.relayBuffer := rfl
@[simp] theorem State.countInterface_relayInterval (f : InterfaceCounters → InterfaceCounters) :
    (s.countInterface f).relayInterval = s.relayInterval := rfl

/-! ### `State.respond` -/

@[simp] theorem State.respond_pending (p : Packet) (x : Status) (d : List Byte) :
    (s.respond p x d).pending = s.pending := rfl
@[simp] theorem State.respond_epoch (p : Packet) (x : Status) (d : List Byte) :
    (s.respond p x d).epoch = s.epoch := rfl
@[simp] theorem State.respond_starting (p : Packet) (x : Status) (d : List Byte) :
    (s.respond p x d).starting = s.starting := rfl
@[simp] theorem State.respond_nodeAddress (p : Packet) (x : Status) (d : List Byte) :
    (s.respond p x d).nodeAddress = s.nodeAddress := rfl
@[simp] theorem State.respond_ports (p : Packet) (x : Status) (d : List Byte) :
    (s.respond p x d).ports = s.ports := rfl
@[simp] theorem State.respond_sourceSlots (p : Packet) (x : Status) (d : List Byte) :
    (s.respond p x d).sourceSlots = s.sourceSlots := rfl
@[simp] theorem State.respond_outputSlots (p : Packet) (x : Status) (d : List Byte) :
    (s.respond p x d).outputSlots = s.outputSlots := rfl
@[simp] theorem State.respond_tableStore (p : Packet) (x : Status) (d : List Byte) :
    (s.respond p x d).tableStore = s.tableStore := rfl
@[simp] theorem State.respond_descriptors (p : Packet) (x : Status) (d : List Byte) :
    (s.respond p x d).descriptors = s.descriptors := rfl
@[simp] theorem State.respond_window (p : Packet) (x : Status) (d : List Byte) :
    (s.respond p x d).window = s.window := rfl
@[simp] theorem State.respond_pins (p : Packet) (x : Status) (d : List Byte) :
    (s.respond p x d).pins = s.pins := rfl
@[simp] theorem State.respond_loadUnit (p : Packet) (x : Status) (d : List Byte) :
    (s.respond p x d).loadUnit = s.loadUnit := rfl
@[simp] theorem State.respond_views (p : Packet) (x : Status) (d : List Byte) :
    (s.respond p x d).views = s.views := rfl
@[simp] theorem State.respond_jobs (p : Packet) (x : Status) (d : List Byte) :
    (s.respond p x d).jobs = s.jobs := rfl
@[simp] theorem State.respond_flight (p : Packet) (x : Status) (d : List Byte) :
    (s.respond p x d).flight = s.flight := rfl
@[simp] theorem State.respond_records (p : Packet) (x : Status) (d : List Byte) :
    (s.respond p x d).records = s.records := rfl
@[simp] theorem State.respond_nextRecord (p : Packet) (x : Status) (d : List Byte) :
    (s.respond p x d).nextRecord = s.nextRecord := rfl
@[simp] theorem State.respond_timeTag (p : Packet) (x : Status) (d : List Byte) :
    (s.respond p x d).timeTag = s.timeTag := rfl
@[simp] theorem State.respond_resolution (p : Packet) (x : Status) (d : List Byte) :
    (s.respond p x d).resolution = s.resolution := rfl
@[simp] theorem State.respond_forwardQueue (p : Packet) (x : Status) (d : List Byte) :
    (s.respond p x d).forwardQueue = s.forwardQueue := rfl
@[simp] theorem State.respond_transmission (p : Packet) (x : Status) (d : List Byte) :
    (s.respond p x d).transmission = s.transmission := rfl
@[simp] theorem State.respond_paused (p : Packet) (x : Status) (d : List Byte) :
    (s.respond p x d).paused = s.paused := rfl
@[simp] theorem State.respond_uplinkPort (p : Packet) (x : Status) (d : List Byte) :
    (s.respond p x d).uplinkPort = s.uplinkPort := rfl
@[simp] theorem State.respond_relayPort (p : Packet) (x : Status) (d : List Byte) :
    (s.respond p x d).relayPort = s.relayPort := rfl
@[simp] theorem State.respond_commandBuffer (p : Packet) (x : Status) (d : List Byte) :
    (s.respond p x d).commandBuffer = s.commandBuffer := rfl
@[simp] theorem State.respond_responses (p : Packet) (x : Status) (d : List Byte) :
    (s.respond p x d).responses = s.responses ++ [⟨p.tag, p.command, x, d⟩] := rfl
@[simp] theorem State.respond_notices (p : Packet) (x : Status) (d : List Byte) :
    (s.respond p x d).notices = s.notices := rfl
@[simp] theorem State.respond_sticky (p : Packet) (x : Status) (d : List Byte) :
    (s.respond p x d).sticky = s.sticky := rfl
@[simp] theorem State.respond_noticeMask (p : Packet) (x : Status) (d : List Byte) :
    (s.respond p x d).noticeMask = s.noticeMask := rfl
@[simp] theorem State.respond_interfaceCounters (p : Packet) (x : Status) (d : List Byte) :
    (s.respond p x d).interfaceCounters = s.interfaceCounters := rfl
@[simp] theorem State.respond_relayBuffer (p : Packet) (x : Status) (d : List Byte) :
    (s.respond p x d).relayBuffer = s.relayBuffer := rfl
@[simp] theorem State.respond_relayInterval (p : Packet) (x : Status) (d : List Byte) :
    (s.respond p x d).relayInterval = s.relayInterval := rfl

/-! ### `State.send` -/

@[simp] theorem State.send_pending (p : UplinkPacket) :
    (s.send p).pending = s.pending := rfl
@[simp] theorem State.send_epoch (p : UplinkPacket) :
    (s.send p).epoch = s.epoch := rfl
@[simp] theorem State.send_starting (p : UplinkPacket) :
    (s.send p).starting = s.starting := rfl
@[simp] theorem State.send_nodeAddress (p : UplinkPacket) :
    (s.send p).nodeAddress = s.nodeAddress := rfl
@[simp] theorem State.send_ports (p : UplinkPacket) :
    (s.send p).ports = s.ports := rfl
@[simp] theorem State.send_sourceSlots (p : UplinkPacket) :
    (s.send p).sourceSlots = s.sourceSlots := rfl
@[simp] theorem State.send_outputSlots (p : UplinkPacket) :
    (s.send p).outputSlots = s.outputSlots := rfl
@[simp] theorem State.send_tableStore (p : UplinkPacket) :
    (s.send p).tableStore = s.tableStore := rfl
@[simp] theorem State.send_descriptors (p : UplinkPacket) :
    (s.send p).descriptors = s.descriptors := rfl
@[simp] theorem State.send_window (p : UplinkPacket) :
    (s.send p).window = s.window := rfl
@[simp] theorem State.send_pins (p : UplinkPacket) :
    (s.send p).pins = s.pins := rfl
@[simp] theorem State.send_loadUnit (p : UplinkPacket) :
    (s.send p).loadUnit = s.loadUnit := rfl
@[simp] theorem State.send_views (p : UplinkPacket) :
    (s.send p).views = s.views := rfl
@[simp] theorem State.send_jobs (p : UplinkPacket) :
    (s.send p).jobs = s.jobs := rfl
@[simp] theorem State.send_flight (p : UplinkPacket) :
    (s.send p).flight = s.flight := rfl
@[simp] theorem State.send_records (p : UplinkPacket) :
    (s.send p).records = s.records := rfl
@[simp] theorem State.send_nextRecord (p : UplinkPacket) :
    (s.send p).nextRecord = s.nextRecord := rfl
@[simp] theorem State.send_timeTag (p : UplinkPacket) :
    (s.send p).timeTag = s.timeTag := rfl
@[simp] theorem State.send_resolution (p : UplinkPacket) :
    (s.send p).resolution = s.resolution := rfl
@[simp] theorem State.send_forwardQueue (p : UplinkPacket) :
    (s.send p).forwardQueue = s.forwardQueue := rfl
@[simp] theorem State.send_transmission (p : UplinkPacket) :
    (s.send p).transmission = s.transmission := rfl
@[simp] theorem State.send_paused (p : UplinkPacket) :
    (s.send p).paused = s.paused := rfl
@[simp] theorem State.send_uplinkPort (p : UplinkPacket) :
    (s.send p).uplinkPort = some (uplinkBytes s.nodeAddress p) := rfl
@[simp] theorem State.send_relayPort (p : UplinkPacket) :
    (s.send p).relayPort = s.relayPort := rfl
@[simp] theorem State.send_commandBuffer (p : UplinkPacket) :
    (s.send p).commandBuffer = s.commandBuffer := rfl
@[simp] theorem State.send_responses (p : UplinkPacket) :
    (s.send p).responses = s.responses := rfl
@[simp] theorem State.send_notices (p : UplinkPacket) :
    (s.send p).notices = s.notices := rfl
@[simp] theorem State.send_sticky (p : UplinkPacket) :
    (s.send p).sticky = s.sticky := rfl
@[simp] theorem State.send_noticeMask (p : UplinkPacket) :
    (s.send p).noticeMask = s.noticeMask := rfl
@[simp] theorem State.send_interfaceCounters (p : UplinkPacket) :
    (s.send p).interfaceCounters = s.interfaceCounters := rfl
@[simp] theorem State.send_relayBuffer (p : UplinkPacket) :
    (s.send p).relayBuffer = s.relayBuffer := rfl
@[simp] theorem State.send_relayInterval (p : UplinkPacket) :
    (s.send p).relayInterval = s.relayInterval := rfl

/-! ### The updates named for what they do -/

/-- A camera's counters are part of its port. -/
theorem State.countCamera_eq (c : Fin 4) (f : CameraCounters → CameraCounters) :
    s.countCamera c f = s.updPort c fun p => { p with counters := f p.counters } := rfl

/-- A view's counters are part of the view. -/
theorem State.countView_eq (v : Fin 16) (f : ViewCounters → ViewCounters) :
    s.countView v f = s.updView v fun w => { w with counters := f w.counters } := rfl

/-- A released reference is a change of its source slot. -/
theorem State.releaseSource_eq (i : Fin 12) :
    s.releaseSource i = s.updSource i fun x => { x with refs := x.refs - 1 } := rfl

/-- Finalising is a change of the record. -/
theorem State.finalise_eq (n : RecordNumber) (x : RecordStatus) :
    s.finalise n x = s.updRecord n fun r => { r with status := x, tagFinal := some s.timeTag } := rfl

end Sys2Proof.Machine
end

