-- ==== Sys2Proof/Laws/Operations.lean ====
section
/-! SUPPORT. For each shared operation, one lemma that says once everything it can do. -/

namespace Sys2Proof.Machine

/-! ### Executing a command (R163) -/

/-- A row whose command is started answers what the checks and the rule answer. -/
theorem runCommand_started {c : Command} {p : Packet} {rest : List Packet} {s : State} (h : Started c p rest s)
    (rule : List Byte → State → Answer) :
    runCommand c rule s = answerTo p (checked c p.payload rule { s with commandBuffer := rest }) := by
  simp [runCommand, h.buffer, h.addressed, h.code, h.room]

/-- A row whose command is not started changes nothing. -/
theorem runCommand_idle {c : Command} {s : State} (h : ∀ p rest, ¬ Started c p rest s)
    (rule : List Byte → State → Answer) : runCommand c rule s = .next s := by
  unfold runCommand
  split
  · rfl
  · next p rest hb =>
    split
    · next k => exact absurd ⟨hb, k.1, k.2.1, k.2.2⟩ (h p rest)
    · rfl

/-- Everything a row of the interpreter can do: nothing, or one execution with its response or its fault. -/
theorem runCommand_cases (c : Command) (rule : List Byte → State → Answer) (s : State) :
    runCommand c rule s = .next s ∨ ∃ p rest, Started c p rest s ∧
      ((∃ t status data, checked c p.payload rule { s with commandBuffer := rest } = .reply t status data
          ∧ runCommand c rule s = .next (t.respond p status data))
        ∨ ∃ f, checked c p.payload rule { s with commandBuffer := rest } = .stop f
          ∧ runCommand c rule s = .fault f) := by
  by_cases h : ∃ p rest, Started c p rest s
  · obtain ⟨p, rest, h⟩ := h
    refine .inr ⟨p, rest, h, ?_⟩
    rw [runCommand_started h]
    cases e : checked c p.payload rule { s with commandBuffer := rest } with
    | reply t status data => exact .inl ⟨t, status, data, rfl, rfl⟩
    | stop f => exact .inr ⟨f, rfl, rfl⟩
  · exact .inl (runCommand_idle (fun p rest k => h ⟨p, rest, k⟩) rule)

/-- The five answers the checks of R163 can give. -/
theorem checked_cases (c : Command) (payload : List Byte) (rule : List Byte → State → Answer) (s : State) :
    (s.starting = true ∧ c.runsWhileStarting = false ∧ checked c payload rule s = refuse s .starting)
    ∨ ((∃ d t b, s.loadUnit = .loading d t b) ∧ c.runsWhileLoading = false
        ∧ checked c payload rule s = .reply s.cancelLoad .sequence [])
    ∨ ((∃ d t k, s.loadUnit = .streaming d t k) ∧ (c = .loadOpen ∨ c = .streamOpen)
        ∧ checked c payload rule s = refuse s .busy)
    ∨ (c.lengthFits payload = false ∧ checked c payload rule s = refuse s .badLength)
    ∨ (c.lengthFits payload = true ∧ checked c payload rule s = rule payload s) := by
  unfold checked loadStateCheck
  by_cases ho : c = .loadOpen ∨ c = .streamOpen <;> cases hs : s.starting <;>
    cases hr : c.runsWhileStarting <;> cases hl : s.loadUnit <;> cases hw : c.runsWhileLoading <;>
    cases hf : c.lengthFits payload <;> simp [ho]

/-- With the part ready and no stream open, or a command that opens none, the checks come down to the length. -/
theorem checked_ready {c : Command} {payload : List Byte} {rule : List Byte → State → Answer} {s : State}
    (hs : s.starting = false) (hl : s.noPatchLoad)
    (ho : (∀ d t k, s.loadUnit ≠ .streaming d t k) ∨ (c ≠ .loadOpen ∧ c ≠ .streamOpen)) :
    checked c payload rule s = if c.lengthFits payload then rule payload s else refuse s .badLength := by
  unfold checked loadStateCheck
  cases h : s.loadUnit with
  | idle => simp [hs]
  | loading d t b => exact absurd h (hl d t b)
  | streaming d t k =>
    rcases ho with ho | ⟨h1, h2⟩
    · exact absurd h (ho d t k)
    · simp [hs, h1, h2]

/-- A command that runs in every load state comes down to the length once the part is not STARTING. -/
theorem checked_always {c : Command} {payload : List Byte} {rule : List Byte → State → Answer} {s : State}
    (hs : s.starting = false ∨ c.runsWhileStarting = true) (hl : c.runsWhileLoading = true) :
    checked c payload rule s = if c.lengthFits payload then rule payload s else refuse s .badLength := by
  have ho : c ≠ .loadOpen ∧ c ≠ .streamOpen := by
    constructor <;> rintro rfl <;> cases hl
  unfold checked loadStateCheck
  cases h : s.loadUnit <;> rcases hs with hs | hs <;> simp [hs, hl, ho.1, ho.2]

/-- Where the first checks of R163 let the command through, its packet comes down to the length and the rule. -/
theorem checked_proceeds {c : Command} {payload : List Byte} {rule : List Byte → State → Answer} {s : State}
    (h : c.Proceeds s) :
    checked c payload rule s = if c.lengthFits payload then rule payload s else refuse s .badLength := by
  obtain ⟨hs, hl⟩ := h
  have hs' : (s.starting && !c.runsWhileStarting) = false := by
    rcases hs with hs | rfl | rfl
    · simp [hs]
    · exact Bool.and_false _
    · exact Bool.and_false _
  have hc : loadStateCheck c s = none := by
    unfold loadStateCheck
    cases hu : s.loadUnit with
    | idle => rfl
    | loading d t b =>
      simp only [hu] at hl
      have : c.runsWhileLoading = true := by
        revert hl; cases c <;> decide
      simp [this]
    | streaming d t n =>
      simp only [hu] at hl
      simp [hl.1, hl.2]
  simp [checked, hs', hc]

/-- Everything a row also executed by broadcast can do: what `runCommand` does, or its effect without a response. -/
theorem runBroadcastable_cases (c : Command) (rule : List Byte → State → Answer)
    (effect : List Byte → State → State) (s : State) :
    runBroadcastable c rule effect s = runCommand c rule s
    ∨ ∃ p rest, s.commandBuffer = p :: rest ∧ p.broadcast = true ∧ broadcastRuns s p = true ∧ p.command = c.code
      ∧ runBroadcastable c rule effect s = .next (effect p.payload { s with commandBuffer := rest }) := by
  unfold runBroadcastable
  split
  · next h => left; simp [runCommand, h]
  · next p rest h =>
    cases hb : p.broadcast
    · left; simp
    · by_cases hr : broadcastRuns s p = true ∧ p.command = c.code
      · exact .inr ⟨p, rest, h, hb, hr.1, hr.2, by simp [hr]⟩
      · left; simp [runCommand, h, hb, hr]

/-- A response placed after the packet left is the state `answered` describes. -/
theorem respond_eq_answered (s : State) (p : Packet) (rest : List Packet) (status : Status) (data : List Byte) :
    State.respond { s with commandBuffer := rest } p status data = s.answered p rest status data := rfl

/-! ### Notices (R165) -/

/-- Everything raising a notice can do. -/
theorem raise_cases (s : State) (n : Notice) :
    s.raise n = s ∨ s.raise n = { s with notices := s.notices ++ [n] }
    ∨ s.raise n = { s with
        sticky := withBit s.sticky StickyFlag.noticeLost.bit
        interfaceCounters := { s.interfaceCounters with
          noticesLost := satInc s.interfaceCounters.noticesLost } } := by
  unfold State.raise
  split
  · split
    · exact .inr (.inl rfl)
    · exact .inr (.inr rfl)
  · exact .inl rfl

/-- A notice touches the Notice Queue, one sticky flag and one counter only. -/
theorem raise_only (s : State) (n : Notice) : ∃ q k i,
    s.raise n = { s with notices := q, sticky := k, interfaceCounters := i } := by
  rcases raise_cases s n with h | h | h <;> exact ⟨_, _, _, h⟩

/-- The Notice Queue keeps its bound. -/
theorem raise_notices_le {s : State} (n : Notice) (h : s.notices.length ≤ 16) : (s.raise n).notices.length ≤ 16 := by
  unfold State.raise
  split
  · split
    · next hl =>
      simp only [Config.noticePlaces] at hl
      simp only [List.length_append, List.length_singleton]
      omega
    · simpa using h
  · exact h

/-! ### Record flags (R93) -/

/-- A flag is set in a set it joins, and the others stand. -/
theorem getLsbD_withBit {w : Nat} (x : BitVec w) (i j : Nat) (hj : j < w) :
    (withBit x i).getLsbD j = (x.getLsbD j || decide (i = j)) := by
  simp only [withBit, BitVec.getLsbD_or, BitVec.getLsbD_twoPow]
  by_cases h : i = j
  · subst h; simp [hj]
  · simp [h]

/-- The bits of the record flags differ and lie in the set. -/
theorem recordFlag_bit_lt (f : RecordFlag) : f.bit < 15 := by cases f <;> decide

/-- Two flags of one bit are one flag. -/
theorem recordFlag_bit_injective {f g : RecordFlag} (h : f.bit = g.bit) : f = g := by
  revert h; cases f <;> cases g <;> decide

/-- What a set holds after a flag has joined it. -/
theorem hasFlag_joinFlag (x : BitVec 15) (f g : RecordFlag) :
    hasFlag (joinFlag x f) g = (hasFlag x g || decide (f = g)) := by
  simp only [hasFlag, joinFlag]
  rw [getLsbD_withBit x f.bit g.bit (recordFlag_bit_lt g)]
  congr 1
  exact decide_eq_decide.2 ⟨recordFlag_bit_injective, fun h => h ▸ rfl⟩

/-- What a set holds after several flags have joined it. -/
theorem hasFlag_joinFlags (x : BitVec 15) (fs : List RecordFlag) (g : RecordFlag) :
    hasFlag (joinFlags x fs) g = (hasFlag x g || decide (g ∈ fs)) := by
  induction fs generalizing x with
  | nil => simp [joinFlags]
  | cons f fs ih =>
    have : joinFlags x (f :: fs) = joinFlags (joinFlag x f) fs := rfl
    rw [this, ih, hasFlag_joinFlag]
    by_cases h : f = g
    · subst h; simp
    · simp [h, Ne.symm h]

/-! ### Spans and the protection window (R22, R37, R40) -/

/-- Two runs of words overlap exactly when they share a word. -/
theorem overlaps_iff (a b : Span) : a.overlaps b = true ↔
    ∃ x, a.first ≤ x ∧ x < a.first + a.count ∧ b.first ≤ x ∧ x < b.first + b.count := by
  simp only [Span.overlaps, decide_eq_true_eq]
  constructor
  · intro h
    exact ⟨max a.first b.first, by omega, by omega, by omega, by omega⟩
  · rintro ⟨x, h⟩
    omega

/-- Some word of a run is pinned exactly when a pin holds one of its words. -/
theorem pinned_iff (s : State) (t : Span) : s.pinned t = true ↔
    ∃ x, t.first ≤ x ∧ x < t.first + t.count ∧ ∃ y ∈ s.pins, y.first ≤ x ∧ x < y.first + y.count := by
  simp only [State.pinned, List.any_eq_true, overlaps_iff]
  constructor
  · rintro ⟨y, hy, x, h⟩
    exact ⟨x, h.1, h.2.1, y, hy, h.2.2⟩
  · rintro ⟨x, h1, h2, y, hy, h3⟩
    exact ⟨y, hy, x, h1, h2, h3⟩

/-- The sized range lies in the store. -/
theorem sized_inStore (w : ProtectionWindow) : w.sized.first + w.sized.count ≤ 131072 := by
  obtain ⟨size, side, complement, locked⟩ := w
  cases side <;> revert size <;> simp only [ProtectionWindow.sized] <;> decide

/-! ### Jobs and views (R66, R70, R71, R95) -/

/-- Leaving the waiting state twice is leaving it once. -/
theorem leaveWaiting_idem (w : View) : w.leaveWaiting.leaveWaiting = w.leaveWaiting := by
  cases h : w.state <;> simp [View.leaveWaiting, h, View.disable, View.resetForwarding]

/-- Settling touches one view, and only when it has no job left. -/
theorem settle_eq (s : State) (v : Fin 16) :
    s.settle v = { s with
      views := if s.outstanding v = 0 then upd s.views v View.leaveWaiting else s.views } := by
  unfold State.settle
  split <;> rfl

/-- Cancelling jobs one after another: the references of each slot and the cancelled counter of each view. -/
theorem foldl_cancelJob (gone : List Job) (s : State) :
    gone.foldl State.cancelJob s = { s with
      sourceSlots := tabulate fun i =>
        let x := pick s.sourceSlots i
        { x with refs := x.refs - gone.countP fun j => j.slot == i }
      views := tabulate fun v =>
        let w := pick s.views v
        { w with counters := { w.counters with
          cancelled := Nat.repeat satInc (gone.countP fun j => j.view == v) w.counters.cancelled } } } := by
  induction gone generalizing s with
  | nil =>
    have hs : (tabulate fun i => pick s.sourceSlots i) = s.sourceSlots := pick_ext fun i => by simp
    have hv : (tabulate fun v => pick s.views v) = s.views := pick_ext fun v => by simp
    simp [Nat.repeat, hs, hv]
  | cons j gone ih =>
    have repeat_satInc : ∀ n (c : Counter), Nat.repeat satInc n (satInc c) = Nat.repeat satInc (n + 1) c := by
      intro n c
      induction n with
      | zero => rfl
      | succ n ih => rw [Nat.repeat, ih]; rfl
    rw [List.foldl_cons, ih]
    simp only [State.cancelJob, State.releaseSource, State.updSource, State.countView, State.updView,
      List.countP_cons]
    congr 1
    · apply pick_ext
      intro i
      simp only [pick_tabulate, pick_upd]
      by_cases h : i = j.slot
      · subst h
        simp only [if_true, beq_self_eq_true]
        congr 1
        omega
      · have h' : ¬ j.slot = i := fun e => h e.symm
        simp [h, h']
    · apply pick_ext
      intro v
      simp only [pick_tabulate, pick_upd]
      by_cases h : v = j.view
      · subst h
        simp only [if_true, beq_self_eq_true, repeat_satInc]
      · have h' : ¬ j.view = v := fun e => h e.symm
        simp [h, h']

/-- Removing queued jobs (R70, R80, R95). -/
theorem removeJobs_eq (s : State) (gone : Job → Bool) :
    s.removeJobs gone = { s with
      jobs := s.jobs.filter fun j => !gone j
      sourceSlots := tabulate fun i =>
        let x := pick s.sourceSlots i
        { x with refs := x.refs - (s.jobs.filter gone).countP fun j => j.slot == i }
      views := tabulate fun v =>
        let w := pick s.views v
        { w with counters := { w.counters with
          cancelled := Nat.repeat satInc ((s.jobs.filter gone).countP fun j => j.view == v)
            w.counters.cancelled } } } := by
  rw [State.removeJobs, foldl_cancelJob]

/-- Marking latched descriptors accessed (R86). -/
theorem markAccessed_eq (ds : List (Fin 64)) (s : State) :
    s.markAccessed ds = { s with descriptors := s.accessedBy ds } := by
  induction ds generalizing s with
  | nil =>
    have : s.accessedBy [] = s.descriptors := pick_ext fun d => by simp [State.accessedBy]
    rw [this]; rfl
  | cons d ds ih =>
    have : s.markAccessed (d :: ds)
        = (s.updDescriptor d fun x => { x with accessed := true }).markAccessed ds := rfl
    rw [this, ih]
    simp only [State.updDescriptor]
    congr 1
    apply pick_ext
    intro e
    simp only [State.accessedBy, pick_tabulate, pick_upd, List.contains_cons]
    by_cases h : e = d
    · subst h; simp
    · simp [h]

/-! ### The Forward Queue (R150, R151) -/

/-- An offer touches the Forward Queue, a drop counter, FORWARD_DROP and what a notice touches, and nothing else. -/
theorem offer_only (s : State) (e : ForwardEntry) : ∃ fq vs q k i,
    s.offer e = { s with
      forwardQueue := fq, views := vs, notices := q, sticky := k, interfaceCounters := i } := by
  have drop : ∀ (t : State) (x : ForwardEntry) (b : Bool), ∃ vs q k i,
      t.reportDrop x b = { t with views := vs, notices := q, sticky := k, interfaceCounters := i } := by
    intro t x b
    obtain ⟨q, k, i, h⟩ := raise_only
      ((t.countView x.view fun k => { k with forwardDrops := satInc k.forwardDrops }).setSticky .forwardDrop)
      (.forwardDrop x.view x.record b)
    exact ⟨_, q, k, i, h⟩
  simp only [State.offer]
  split
  · exact ⟨_, _, _, _, _, rfl⟩
  · split
    · split
      · next old _ =>
        obtain ⟨vs, q, k, i, h⟩ := drop { s with
          forwardQueue := enqueue e
            (s.forwardQueue.eraseP fun x => x.priority == lowestPriority s.forwardQueue) } old false
        exact ⟨_, vs, q, k, i, h⟩
      · exact ⟨_, _, _, _, _, rfl⟩
    · obtain ⟨vs, q, k, i, h⟩ := drop s e true
      exact ⟨_, vs, q, k, i, h⟩

/-- The entries of the queue after an entry has joined it. -/
theorem mem_enqueue {e x : ForwardEntry} {q : List ForwardEntry} (h : x ∈ enqueue e q) : x = e ∨ x ∈ q := by
  simp only [enqueue, List.mem_append, List.mem_cons] at h
  rcases h with h | h | h
  · exact .inr ((List.takeWhile_sublist _).subset h)
  · exact .inl h
  · exact .inr ((List.dropWhile_sublist _).subset h)

/-- Joining makes the queue one longer. -/
theorem enqueue_length (e : ForwardEntry) (q : List ForwardEntry) : (enqueue e q).length = q.length + 1 := by
  have h := congrArg List.length
    (List.takeWhile_append_dropWhile (p := fun x : ForwardEntry => decide (e.priority ≤ x.priority)) (l := q))
  simp only [List.length_append] at h
  simp only [enqueue, List.length_append, List.length_cons]
  omega

/-- Joining keeps descending priority. -/
theorem enqueue_sorted (e : ForwardEntry) {q : List ForwardEntry}
    (h : q.Pairwise fun x y => y.priority ≤ x.priority) :
    (enqueue e q).Pairwise fun x y => y.priority ≤ x.priority := by
  induction q with
  | nil => simp [enqueue]
  | cons a q ih =>
    rw [List.pairwise_cons] at h
    simp only [enqueue, List.takeWhile_cons, List.dropWhile_cons]
    by_cases ha : e.priority ≤ a.priority
    · simp only [ha, decide_true, if_true, List.cons_append]
      refine List.pairwise_cons.2 ⟨fun x hx => ?_, ih h.2⟩
      rcases mem_enqueue (q := q) hx with rfl | hx
      · exact ha
      · exact h.1 x hx
    · simp only [ha, decide_false, Bool.false_eq_true, if_false, List.nil_append]
      have hlt : a.priority ≤ e.priority := le_of_lt (not_le.1 ha)
      refine List.pairwise_cons.2 ⟨fun x hx => ?_, List.pairwise_cons.2 h⟩
      rcases List.mem_cons.1 hx with rfl | hx
      · exact hlt
      · exact le_trans (h.1 x hx) hlt

/-- The lowest priority is no higher than any entry's. -/
theorem lowestPriority_le {q : List ForwardEntry} {x : ForwardEntry} (h : x ∈ q) :
    lowestPriority q ≤ x.priority := by
  have base : ∀ (q : List ForwardEntry) (p : Fin 4), q.foldl (fun p e => min p e.priority) p ≤ p := by
    intro q
    induction q with
    | nil => exact fun p => le_refl p
    | cons a q ih => exact fun p => le_trans (ih _) (min_le_left _ _)
  have main : ∀ (q : List ForwardEntry) (p : Fin 4), x ∈ q →
      q.foldl (fun p e => min p e.priority) p ≤ x.priority := by
    intro q
    induction q with
    | nil => intro p hx; cases hx
    | cons a q ih =>
      intro p hx
      rcases List.mem_cons.1 hx with rfl | hx
      · exact le_trans (base q _) (min_le_right _ _)
      · exact ih _ hx
  exact main q 3 h

/-- The lowest priority of a queue with an entry is some entry's. -/
theorem lowestPriority_mem {q : List ForwardEntry} (h : q ≠ []) : ∃ x ∈ q, x.priority = lowestPriority q := by
  have main : ∀ (q : List ForwardEntry) (p : Fin 4), q.foldl (fun p e => min p e.priority) p = p
      ∨ ∃ x ∈ q, x.priority = q.foldl (fun p e => min p e.priority) p := by
    intro q
    induction q with
    | nil => exact fun p => .inl rfl
    | cons a q ih =>
      intro p
      rcases ih (min p a.priority) with e | ⟨x, hx, e⟩
      · rcases le_total p a.priority with k | k
        · left; simpa [min_eq_left k] using e
        · right; exact ⟨a, by simp, by simpa [min_eq_right k] using e.symm⟩
      · exact .inr ⟨x, by simp [hx], e⟩
  rcases main q 3 with e | e
  · obtain ⟨x, hx⟩ := List.exists_mem_of_ne_nil q h
    refine ⟨x, hx, le_antisymm ?_ (lowestPriority_le hx)⟩
    have : lowestPriority q = 3 := e
    rw [this]
    exact Fin.le_last x.priority
  · exact e

/-! ### Records (R140) -/

/-- The creation of a record: what `State.started` describes, before the head job leaves the queue. -/
theorem createRecord_eq (j : Job) (rest : List Job) (s : State) :
    createRecord j { s with jobs := rest } = s.started rest (newRecord s j) := by
  simp only [createRecord, State.started, newRecord, Config.recordPlaces]
  by_cases hf : 1024 ≤ s.records.length <;> by_cases hm : s.nextRecord.toNat % 1024 = 0
  all_goals
    simp only [hf, hm, decide_true, decide_false, Bool.true_and, Bool.false_and, beq_self_eq_true, if_true,
      Bool.false_eq_true, if_false, beq_iff_eq]
  simp only [State.raise]
  split
  · split <;> rfl
  · rfl

/-! ### Steps -/

/-- A step takes the front command; what it answers is that command's `exec`. -/
theorem step_cons {c : Instr} {rest : List Instr} {s : State} (h : s.pending = c :: rest) :
    step s = exec c { s with pending := rest } := by
  simp [step, h]

/-- Every row of the interpreter is its command's `runCommand`, but for the two also executed by broadcast. -/
theorem exec_command {i : Instr} {c : Command} (h : i.command? = some c) :
    (∃ rule, ∀ s, exec i s = runCommand c rule s)
    ∨ ∃ rule effect, ∀ s, exec i s = runBroadcastable c rule effect s := by
  cases i <;> cases h <;> first
    | exact .inl ⟨_, fun _ => rfl⟩
    | exact .inr ⟨softResetRule, fun _ t => softReset t, fun _ => rfl⟩
    | exact .inr ⟨setTimeTagRule, setTimeTag, fun _ => rfl⟩

end Sys2Proof.Machine
end

