-- ==== Sys2Proof/Tests/Slice0.lean ====
section
/-! SUPPORT. Tests: the well-formedness smoke, the worked examples of spec/ by their own figures, one small step for
the plain commands, and for each obligation with hypotheses a witness that meets them, clause by clause. -/

open Sys2Proof Sys2Proof.Machine

namespace Sys2Proof.Tests

set_option Elab.async false

/-! ### Small states -/

/-- The part with its start-up sweep done. -/
def idle : State := { State.reset with starting := false }

/-- A packet for this node. -/
def packet (c : Command) (payload : List Byte) : Packet := ⟨false, 7, c.code, payload⟩

/-- A broadcast packet. -/
def broadcast (c : Command) (payload : List Byte) : Packet := ⟨true, 7, c.code, payload⟩

/-- `s` with one packet in the Command Buffer. -/
def State.holding (s : State) (p : Packet) : State := { s with commandBuffer := [p] }

/-- The status a row's response carries, and its data; none when the step gives no such response. -/
def answer (i : Instr) (s : State) : Option (Status × List Byte) :=
  match exec i s with
  | .next t => t.responses.getLast?.map fun r => (r.status, r.data)
  | .fault _ => none
  | .refused _ => none

/-- One field of the state a step leaves; `d` when it does not answer a next state. -/
def after {α : Type} (i : Instr) (s : State) (d : α) (f : State → α) : α :=
  match exec i s with
  | .next t => f t
  | .fault _ => d
  | .refused _ => d

/-- A header copy: sequence 9, exposure 2500, the level and the odometer given. -/
def header (level : Fin 8) (odometer : Word) : HeaderCopy := ⟨9, 2500, level, .normal, 0, 0, odometer, false⟩

/-- A job of view 0 and camera 0 from source slot 0. -/
def job : Job := ⟨0, 0, 0, header 4 0, 0⟩

/-- View 0 ACTIVE with scheme SINGLE on output slot 12, mesh 1, tone 2 and class EVERY. -/
def activeView : View :=
  { View.powerOn with
    state := .active
    params := { ViewParams.powerOn with
      levelMask := 255
      kindMask := 7
      job := { ViewParams.powerOn.job with
        gainSet := #v[⟨2, 3⟩, ⟨6, 4⟩, ⟨0, 0⟩, ⟨0, 0⟩]
        meshSelector := 1, toneSelector := 2, width := 64, height := 16, scheme := .single, slotBase := 12 }
      forwardClass := .every } }

/-- A usable mesh in descriptor 1 at word 64: 5 by 3 nodes, k = 4, for a 64 by 16 output. -/
def meshWord : Word := BitVec.ofNat 32 (2 + 2 ^ 8 * 5 + 2 ^ 16 * 3 + 2 ^ 24 * 4)

/-- The store of `working`: the mesh, and gain surfaces in descriptors 3 and 4. -/
def tables : List (Nat × Word) :=
  [(64, meshWord), (256, BitVec.ofNat 32 (1 + 2 ^ 8 * 2 + 2 ^ 15 * 2 + 2 ^ 22 * 6))]

/-- Four descriptors: mesh 1 and gain 3 usable, tone 2 absent, gain 4 of the wrong header. -/
def described : Vector Descriptor 64 :=
  upd (upd (upd (Vector.replicate 64 Descriptor.powerOn) 1
    fun _ => ⟨64, 15, .word, .mesh, true, false, .unlocked⟩) 3
    fun _ => ⟨256, 2, .word, .gain, true, false, .unlocked⟩) 4
    fun _ => ⟨320, 2, .word, .gain, true, false, .locked⟩

/-- Camera 0 configured 64 by 16 and in WAIT, view 0 ACTIVE, the tables loaded. -/
def working : State :=
  { idle with
    ports := upd idle.ports 0 fun p => { p with state := .wait, width := 64, height := 16 }
    views := upd idle.views 0 fun _ => activeView
    descriptors := described
    tableStore := tables }

/-- `working` with two jobs of view 0 queued from source slot 0. -/
def queued : State :=
  { working with
    jobs := [job, job]
    sourceSlots := upd working.sourceSlots 0 fun x => { x with refs := 2 } }

/-- The mesh of descriptor 1 as latched. -/
def meshLatch : TableLatch := ⟨1, ⟨64, 15, .word, .mesh, true, false, .unlocked⟩, .usable (.mesh 5 3 4)⟩

/-- A job in flight with `n` pixels produced. -/
def flight (n : Nat) : Flight :=
  { job := job, record := 0, slot := 0, params := activeView.params.job, black := 0, width := 64, height := 16
    gains := [], meshTable := meshLatch, toneTable := none, mesh := ⟨64, 5, 3, 4⟩, gainMode := .unity
    exposureScale := 4096, toneMode := .linear, tallies := ⟨0, 0, 0, n, none⟩, produced := n }

/-- The record of the job in flight. -/
def inProgress : Record :=
  { newRecord State.reset job with mark := some ⟨0, 1⟩, flags := joinFlag 0 .toneAbsent }

/-- `working` with that job in flight, `n` pixels produced, and one more job queued. -/
def running (n : Nat) : State :=
  { working with
    flight := some (flight n)
    records := [inProgress]
    nextRecord := 1
    jobs := [job]
    pins := [⟨64, 16⟩]
    sourceSlots := upd working.sourceSlots 0 fun x => { x with refs := 2 }
    outputSlots := upd working.outputSlots 0 fun x => { x with generation := 1 } }

/-- A complete record of view 0 whose frame stands in output slot 12. -/
def kept : Record :=
  { inProgress with status := .complete, tagFinal := some 5, statistics := some ⟨400, 12, 48⟩ }

/-- An entry for that record. -/
def entry : ForwardEntry := ⟨0, 0, 2, ⟨0, 1⟩, 64, 16, .code10⟩

/-- `working` with that record kept. -/
def keeping : State :=
  { working with
    records := [kept]
    nextRecord := 1
    outputSlots := upd working.outputSlots 0 fun x => { x with generation := 1 }
    views := upd working.views 0 fun w => { w with lastGood := some 0 } }

/-- `keeping` with a transmission of that entry at line `v`. -/
def sending (v : Nat) (x : Truncation) : State :=
  { keeping with
    transmission := some ⟨entry, v, v, x⟩
    outputSlots := upd keeping.outputSlots 0 fun y => { y with held := true } }

/-- Camera 0 in RECEIVE into slot 0 at line `e` with `n` repairs, the repair limit 2. -/
def receiving (e n : Nat) : State :=
  { working with
    ports := upd working.ports 0 fun p =>
      { p with
        repairLimit := 2, black := 1024
        state := .receive ⟨0, ⟨64, 16, header 4 0⟩, e, n⟩ }
    sourceSlots := upd working.sourceSlots 0 fun x => { x with receiving := true } }

/-- A Frame Start of a 64-pixel-wide frame of the given height and attribute byte. -/
def startPacket (height : Nat) (bits : Byte) : List Byte :=
  [1, 9, 0] ++ leBytes 2 64 ++ leBytes 2 height ++ leBytes 2 2500 ++ [bits] ++ leBytes 3 0 ++ leBytes 4 0

/-- A Line of 64 codes, all 0x333, with its CRC-16 or a wrong one. -/
def linePacket (n : Nat) (good : Bool) : List Byte :=
  let body := leBytes 2 n ++ List.replicate 96 (0x33 : Byte)
  [2] ++ body ++ leBytes 2 ((crc16 body).toNat + if good then 0 else 1)

/-! ### Well-formedness and the table's words -/

theorem test_wellFormed_kind : (Instr.frameStart 0 (2 :: List.replicate 16 0)).wellFormed = false := by decide
theorem test_wellFormed_length : (Instr.frameStart 0 (1 :: List.replicate 15 0)).wellFormed = false := by decide
theorem test_wellFormed_line_kind : (Instr.line 0 [1, 0, 0, 0, 0]).wellFormed = false := by decide
theorem test_wellFormed_line_short : (Instr.line 0 [2, 0, 0, 0]).wellFormed = false := by decide
theorem test_wellFormed_end_kind : (Instr.frameEnd 0 [2, 0, 0]).wellFormed = false := by decide
theorem test_wellFormed_end_long : (Instr.frameEnd 0 [3, 0, 0, 0]).wellFormed = false := by decide
theorem test_wellFormed_frameStart : (Instr.frameStart 0 (startPacket 16 0)).wellFormed = true := by decide
theorem test_no_word_spells_a_command : ∀ n w, decodeTableWord n w = none := fun _ _ => rfl

/-! ### Layouts, by bytes written out from the rules -/

/-- R174: sequence 0x1234, 64 by 16, exposure 2500, level 5, DARK, marker set, axis offset (+24, -8), odometer -2. -/
theorem test_frameStart_layout : parseFrameStart
    [1, 0x34, 0x12, 64, 0, 16, 0, 0xC4, 9, 0x2D, 0x18, 0x80, 0xFF, 0xFE, 0xFF, 0xFF, 0xFF]
    = some ⟨0x1234, 64, 16, 2500, 5, some .dark, true, 24, BitVec.ofInt 12 (-8), BitVec.ofInt 32 (-2)⟩ := by
  decide

/-- R174: two codes, 0xABC and 0x123, in three bytes. -/
theorem test_pixel_packing : unpackPixels [0xBC, 0x3A, 0x12] = [0xABC, 0x123] := by decide

/-- R174: a Frame End of 1536 lines. -/
theorem test_frameEnd_layout : parseFrameEnd [3, 0, 6] = some 1536 := by decide

/-- R172: Identify for node 1, tag 7; the CRC-32 bytes are the packet's own, changed in one bit below. -/
theorem test_downlink_layout : parseDownlink
    ([0xE6, 0x19, 1, 7, 1, 0, 0] ++ leBytes 4 (crc32 [1, 7, 1, 0, 0]).toNat) = some ⟨1, 7, 1, []⟩ := by
  decide +kernel
theorem test_downlink_crc : parseDownlink
    ([0xE6, 0x19, 1, 7, 1, 0, 0] ++ leBytes 4 ((crc32 [1, 7, 1, 0, 0]).toNat + 1)) = none := by decide +kernel
theorem test_downlink_sync : parseDownlink
    ([0xE6, 0x1A, 1, 7, 1, 0, 0] ++ leBytes 4 (crc32 [1, 7, 1, 0, 0]).toNat) = none := by decide +kernel
theorem test_downlink_count : parseDownlink
    ([0xE6, 0x19, 1, 7, 1, 1, 0] ++ leBytes 4 (crc32 [1, 7, 1, 1, 0]).toNat) = none := by decide +kernel

/-- The published check values, over the digits 1 to 9, of the CRC-32 of R160 and the CRC-16 of R7 (both are in
general use; PRESUMED, not in spec/). -/
theorem test_crc32_check : crc32 [49, 50, 51, 52, 53, 54, 55, 56, 57] = 0xCBF43926 := by decide +kernel
theorem test_crc16_check : crc16 [49, 50, 51, 52, 53, 54, 55, 56, 57] = 0x29B1 := by decide +kernel

/-- R173: four codes with high bits 0, 1, 2 and 3. -/
theorem test_code10_packing : packLine .code10 [0x0AA, 0x1BB, 0x2CC, 0x3DD] = [0xAA, 0xBB, 0xCC, 0xDD, 0xE4] := by
  decide

/-- R176: the header words of 2.6, in their three roles. -/
theorem test_mesh_header : parseHeader .mesh (BitVec.ofNat 32 (2 + 65 * 2 ^ 8 + 33 * 2 ^ 16 + 4 * 2 ^ 24))
    = some (.mesh 65 33 4) := by decide
theorem test_gain_header : parseHeader .gain (BitVec.ofNat 32 (1 + 33 * 2 ^ 8 + 25 * 2 ^ 15 + 6 * 2 ^ 22))
    = some (.gain 33 25 6) := by decide
theorem test_tone_header : parseHeader .tone (BitVec.ofNat 32 (3 + 257 * 2 ^ 8)) = some (.tone 257) := by decide
theorem test_table_sizes : (TableHeader.mesh 65 33 4).size = 2146 ∧ (TableHeader.gain 33 25 6).size = 414
    ∧ (TableHeader.tone 257).size = 130 ∧ (TableHeader.gain 65 65 3).size = 2114 := by decide

/-! ### Worked examples of the stages -/

/-- The interpolation table of 6.4. -/
theorem test_bilinear : bilinear 4 1 1 (-24) (-24) (-24) (-16) = -23 ∧ bilinear 4 1 1 (-24) (-24) (-24) (-20) = -24
    ∧ bilinear 4 1 1 24 24 24 16 = 24 ∧ bilinear 4 1 1 24 24 24 20 = 24
    ∧ bilinear 16 5 5 8000 8160 8008 8168 = 8053 := by decide

/-- The edges of the field of 6.10. -/
theorem test_inField : inField 2048 1536 (32752, 24560) = true ∧ inField 2048 1536 (32753, 24560) = false
    ∧ inField 2048 1536 (0, -1) = false ∧ inField 2048 1536 (-5, 300) = false := by decide

/-- The pixel codes around the reference pixel (6.9). -/
def referencePixel (x y : Nat) : Nat :=
  match x, y with
  | 504, 304 => 1000
  | 505, 304 => 1040
  | 504, 305 => 1020
  | 505, 305 => 1060
  | _, _ => 0

/-- The store words the reference pixel reads (6.9, 7.7, 8.10); the level-6 surface stands at 20,480. -/
def referenceStore : List (Nat × Word) :=
  let w := fun (lo hi : Nat) => BitVec.ofNat 32 (lo + 65536 * hi)
  [(8260, w 8000 4800), (8261, w 8160 4800), (8325, w 8008 5056), (8326, w 8168 5056),
    (10438, w 0 6144), (10439, w 6144 0), (10455, w 6400 6400), (10848, w 0 480), (10849, w 488 0),
    (20550, w 0 4096), (20551, w 4096 0), (20567, w 4352 4352)]

/-- The job of 8.10. -/
def referenceFlight : Flight :=
  { flight 0 with
    job := { job with header := { job.header with axisX := 24, axisY := BitVec.ofInt 12 (-8) } }
    params := { activeView.params.job with axisTracking := true, blackSubtraction := true, width := 1024 }
    black := 1024, width := 2048, height := 1536, mesh := ⟨8192, 65, 33, 4⟩
    gainMode := .blend ⟨10368, 33, 25, 6⟩ ⟨20480, 33, 25, 6⟩ 128
    exposureScale := 3277, toneMode := .curve 10816 }

/-- The reference pixel from mesh to output code (8.10). -/
theorem test_reference_locate : locate referenceStore referenceFlight 37 21 = (8077, 4872) := by decide +kernel
theorem test_reference_sample : sample referencePixel 2048 1536 8077 4872 = 266880 := by decide +kernel
theorem test_reference_gain : surfaceGain referenceStore ⟨10368, 33, 25, 6⟩ 8077 4872 = 6338
    ∧ surfaceGain referenceStore ⟨20480, 33, 25, 6⟩ 8077 4872 = 4290 := by decide +kernel
theorem test_reference_corrected : correctedValue 250496 5314 3277 = 1016 ∧ correctedValue 250496 6338 3277 = 1211 := by
  decide +kernel
theorem test_reference_pixel :
    conditionPixel referenceStore referencePixel referenceFlight 37 21 = .conditioned 484 false := by decide +kernel

/-- The exposure scales of 7.9. -/
theorem test_exposure_scales : exposureScale 2000 0 = (4096, true) ∧ exposureScale 2000 100 = (65535, true)
    ∧ exposureScale 2000 125 = (65535, true) ∧ exposureScale 2000 2500 = (3277, false)
    ∧ exposureScale 2000 8000 = (1024, false) ∧ exposureScale 2000 10000 = (1024, true)
    ∧ exposureScale 1000 999 = (4100, false) := by decide +kernel

/-- The blend weights of R114 for a difference of 7. -/
theorem test_blend_weights : [1, 2, 3, 4, 5, 6].map (fun n => blendWeight n 0 7) = [36, 73, 109, 146, 182, 219] := by
  decide

/-- The saturation table of 7.10, before the test. -/
theorem test_saturation : correctedValue 1048320 4096 4096 = 4095 ∧ correctedValue 1048320 4097 4096 = 4096
    ∧ correctedValue 524160 8192 4096 = 4095 ∧ correctedValue 524288 8192 4096 = 4096 := by decide +kernel

/-- The ends of the curve (8.8): T[255] = 1020 and T[256] = 1100, taken as 1023. -/
theorem test_tone_ends : [4080, 4088, 4095].map
    (toneMap [(128, BitVec.ofNat 32 (1020 * 65536)), (129, 1100)] (.curve 0)) = [1020, 1022, 1023] := by
  decide +kernel

/-- The mean of 8.9. -/
theorem test_mean : meanCode ⟨390000, 976, 12, 48, none⟩ = 400 ∧ meanCode ⟨0, 0, 0, 1024, none⟩ = 0 := by decide

/-- The black-level table of R16. -/
theorem test_tracked_black : trackedBlack 1024 1104 = 1034 ∧ trackedBlack 1024 1000 = 1021
    ∧ trackedBlack 1024 1028 = 1025 ∧ trackedBlack 1024 1021 = 1024 := by decide

/-- The SPACING edge of 10.8: 499 is short of 500, 500 selects, and so does 505 backwards. -/
theorem test_spacing : let w := { activeView with params := { activeView.params with forwardClass := .spacing 500 } }
    ({ w with lastOdometer := some 10510 }.select 11009 false).1 = false
    ∧ ({ w with lastOdometer := some 10510 }.select 11010 false).1 = true
    ∧ ({ w with lastOdometer := some 11010 }.select 10505 false).1 = true := by decide +kernel

/-- The slot plan of 4.7: RING 4 at base 62 is out of range and at 60 it meets view 3's 48 to 63. -/
theorem test_slot_plan :
    let plan := fun (scheme : Scheme) (length base : Nat) => { activeView.params with
      job := { activeView.params.job with scheme := scheme, ringLength := length, slotBase := base } }
    let s := { idle with views := upd idle.views 3 fun w => { w with params := plan .ring 16 48 } }
    let ask := fun p => answer .writeView
      (State.holding s (packet .writeView (leBytes 1 4 ++ viewParamBytes p)))
    ask (plan .ring 4 62) = some (.badParam, []) ∧ ask (plan .ring 4 60) = some (.slotConflict, [])
    ∧ ask (plan .ring 16 24) = some (.ok, []) := by decide +kernel

/-- Protected words of R37's table. -/
theorem test_protected_words : (ProtectionWindow.mk 3 .bottom false false).protects 8191 = true
    ∧ (ProtectionWindow.mk 3 .bottom false false).protects 8192 = false
    ∧ (ProtectionWindow.mk 3 .top false false).protects 122880 = true
    ∧ (ProtectionWindow.mk 5 .top true false).protects 98303 = true
    ∧ (ProtectionWindow.mk 5 .top true false).protects 98304 = false
    ∧ (ProtectionWindow.mk 7 .top true false).protects 0 = false := by decide +kernel

/-! ### One step of each kind of row -/

theorem test_reset_idles : step State.reset = .next State.reset := rfl
theorem test_starting_answers : answer .clearStatus (State.holding State.reset (packet .clearStatus [0, 0]))
    = some (.starting, []) := by decide +kernel
theorem test_identify_serves_starting : answer .identify (State.holding State.reset (packet .identify []))
    = some (.ok, [69, 67, 45, 54, 52, 1, 1, 4, 16, 64, 0, 0, 2, 0]) := by decide +kernel
theorem test_frameStart_takes_lowest_slot : after (.frameStart 0 (startPacket 16 4)) working PortState.off
    (fun t => (pick t.ports 0).state) = .receive ⟨0, ⟨64, 16, header 4 0⟩, 0, 0⟩ := by decide +kernel
set_option maxRecDepth 20000 in
theorem test_line_moves_on : after (.line 0 (linePacket 0 true)) (receiving 0 0) 0
    (fun t => (pick t.ports 0).expectedLine) = 1 := by decide +kernel
set_option maxRecDepth 20000 in
theorem test_line_bad_is_repaired : after (.line 0 (linePacket 0 false)) (receiving 0 0) none
    (fun t => (findAt 0 (pick t.sourceSlots 0).rows).map fun r => r.getD 63 0) = some 64 := by decide +kernel
theorem test_frameEnd_posts : after (.frameEnd 0 [3, 16, 0]) (receiving 16 0) 0 (fun t => t.jobs.length) = 1 := by
  decide +kernel
theorem test_frameEnd_damages : after (.frameEnd 0 [3, 16, 0]) (receiving 13 0) (0, [])
    (fun t => (t.sticky.toNat, t.notices)) = (64, [.cameraDamaged 0 9 3]) := by decide +kernel
theorem test_jobStart_runs : after .jobStart queued none
    (fun t => t.flight.map fun f => (f.slot, f.gainMode, f.exposureScale)) =
    some (0, .single ⟨256, 2, 2, 6⟩, 4096) := by decide +kernel
theorem test_jobStart_pins : after .jobStart queued ([], 0)
    (fun t => (t.pins, (pick t.outputSlots 0).generation)) = ([⟨256, 3⟩, ⟨64, 16⟩], 1) := by decide +kernel
theorem test_jobEnd_forwards : after .jobEnd (running 1024) (0, 0)
    (fun t => (t.forwardQueue.length, (pick t.views 0).counters.degraded.toNat)) = (1, 1) := by decide +kernel
theorem test_abort_flushes : answer .engineAbort (State.holding (running 3) (packet .engineAbort [1]))
    = some (.ok, [1, 0, 0, 0, 0, 1]) := by decide +kernel
theorem test_recall_queued : answer .recallFrame (State.holding keeping (packet .recallFrame [0, 0, 0, 0]))
    = some (.ok, [0]) := by decide +kernel
theorem test_ready_ends_transmission : after .uplinkPortReady (sending 16 .whole) (0, true)
    (fun t => ((pick t.views 0).counters.forwarded.toNat, (pick t.outputSlots 0).held)) = (1, false) := by
  decide +kernel
theorem test_relay_overrun : after (.relayByte 5) { idle with relayBuffer := List.replicate 256 0 } (0, 0)
    (fun t => (t.relayBuffer.length, t.sticky.toNat)) = (256, 32) := by decide +kernel
theorem test_tick_wraps : after .timeTagTick { idle with timeTag := 0xFFFFFFFF } 1 (fun t => t.timeTag) = 0 := by
  decide +kernel
theorem test_commit_writes : after .loadCommit
    (State.holding { idle with loadUnit := .loading 1 ⟨64, 2⟩ [5, 0] } (packet .loadCommit [])) []
    (fun t => t.tableStore) = [(64, 5)] := by decide +kernel
theorem test_soft_reset_keeps_tables : after .softReset (State.holding (running 3) (packet .softReset [])) none
    (fun t => if t.tableStore = tables ∧ t.records.length = 1 then some t.responses.length else none) = some 1 := by
  decide +kernel

/-! ### Witnesses: what meets the hypotheses of each statement -/

/-- A packet of `c` with this payload stands alone in the Command Buffer of `s`, is started there, and the part is
not STARTING: the hypotheses common to the statements about a command. -/
def Sent (c : Command) (payload : List Byte) (s : State) : Prop :=
  Started c (packet c payload) [] (State.holding s (packet c payload)) ∧ s.starting = false

theorem sent {c : Command} {payload : List Byte} {s : State} (h : s.responses = []) (r : s.starting = false) :
    Sent c payload s :=
  ⟨⟨rfl, rfl, rfl, by show s.responses.length < 4; simp [h]⟩, r⟩

theorem ready {s : State} (r : s.starting = false) (h : s.loadUnit = .idle) : Ready s :=
  ⟨r, fun _ _ _ => by simp [h]⟩

/-- `idle` with a patch load open on descriptor 1: `n` of `count` words buffered, the first at word 64. -/
def loading (n count : Nat) : State :=
  { idle with
    descriptors := described
    loadUnit := .loading 1 ⟨64, count⟩ (List.replicate n 5) }

/-- `idle` with a stream of 300 words open on descriptor 5, `k` of them written. -/
def streaming (k : Nat) : State :=
  { idle with
    descriptors := upd described 5 fun _ => ⟨512, 299, .word, .mesh, true, false, .unlocked⟩
    loadUnit := .streaming 5 ⟨512, 300⟩ k }

theorem witness_StepRunsTheFront : idle.pending = [] := rfl

theorem witness_InterpreterChecks :
    idle.commandBuffer = []
    ∧ ((packet .identify []).broadcast = false ∧ (packet .identify []).command ≠ Command.getStatus.code)
    ∧ 4 ≤ ({ State.holding idle (packet .getStatus []) with
        responses := List.replicate 4 ⟨0, 0, .ok, []⟩ } : State).responses.length
    ∧ ((broadcast .identify []).broadcast = true
      ∧ (broadcast .setTimeTag [0, 0, 0, 0]).payload.length ≠ 5 ∧ (broadcast .softReset [0]).payload ≠ [])
    ∧ (Started .clearStatus (packet .clearStatus []) [] (State.holding State.reset (packet .clearStatus []))
      ∧ State.reset.starting = true)
    ∧ (Sent .readRecords [0, 0, 0, 0] idle ∧ Command.readRecords.Proceeds idle
      ∧ ([0, 0, 0, 0] : List Byte).length ≠ 5)
    ∧ (Sent .loadCommit [0] (loading 0 1) ∧ Command.loadCommit.Proceeds (loading 0 1))
    ∧ (Sent .uplinkFlush [0] (streaming 0) ∧ Command.uplinkFlush.Proceeds (streaming 0))
    ∧ (Started .identify (packet .identify [0]) [] (State.holding State.reset (packet .identify [0]))
      ∧ Command.identify.Proceeds State.reset)
    ∧ (Sent .engineAbort [2] (streaming 0) ∧ Command.engineAbort.Proceeds (streaming 0) ∧ 1 < num [2] 0 1)
    ∧ (Sent .readDescriptor [0, 255] (loading 0 1) ∧ Command.readDescriptor.Proceeds (loading 0 1)
      ∧ 1 < num [0, 255] 1 1) :=
  ⟨rfl, by decide, by decide, by decide, ⟨⟨rfl, rfl, rfl, by decide⟩, rfl⟩,
    ⟨sent rfl rfl, ⟨.inl rfl, trivial⟩, by decide⟩, ⟨sent rfl rfl, .inl rfl, by simp [loading]⟩,
    ⟨sent rfl rfl, .inl rfl, by simp [streaming]⟩, ⟨⟨rfl, rfl, rfl, by decide⟩, .inr (.inl rfl), trivial⟩,
    ⟨sent rfl rfl, ⟨.inl rfl, by simp [streaming]⟩, by decide⟩,
    ⟨sent rfl rfl, ⟨.inl rfl, by simp [loading]⟩, by decide⟩⟩

theorem witness_PatchLoadCancelled :
    (Sent .uplinkFlush [] (loading 0 1) ∧ Command.uplinkFlush ∉ [Command.loadData, .loadCommit, .loadCancel,
      .getStatus, .identify, .readDescriptor, .readView, .readTable, .readRecords, .readCounters, .softReset])
    ∧ (Sent .loadData ([5, 5].flatMap fun w : Word => leBytes 4 w.toNat) (loading 0 1)
      ∧ 1 < ([] : List Word).length + ([5, 5] : List Word).length)
    ∧ (Sent .loadCommit [] (loading 255 256) ∧ (List.replicate 255 (5 : Word)).length < 256) :=
  ⟨⟨sent rfl rfl, by decide⟩, ⟨sent rfl rfl, by decide⟩, sent rfl rfl, by decide +kernel⟩

theorem witness_NoCommandExecuted :
    (∀ c ∈ [(0 : Byte), 39, 255], c = 0 ∨ 39 ≤ c.toNat) ∧ idle.responses.length < 4
    ∧ State.reset.starting = true
    ∧ ((broadcast .identify []).command ≠ 32 ∧ (broadcast .identify []).command ≠ 6)
    ∧ ((broadcast .setTimeTag [0, 0, 0, 0]).command = 32
      ∧ (broadcast .setTimeTag [0, 0, 0, 0]).payload.length ≠ 5)
    ∧ ((broadcast .softReset [0]).command = 6 ∧ (broadcast .softReset [0]).payload ≠ []) := by decide

theorem witness_OneResponseEach :
    (Sent .softReset [] (running 3)
      ∧ ∃ t, exec .softReset (State.holding (running 3) (packet .softReset [])) = .next t)
    ∧ Sent .setCamera [] idle ∧ ∃ t, exec .setCamera (State.holding idle (packet .setCamera [])) = .next t :=
  ⟨⟨sent rfl rfl, _, rfl⟩, sent rfl rfl, _, rfl⟩

theorem witness_PowerOnAndSweep : State.reset.starting = true := rfl

theorem witness_SoftResetEffects :
    (packet .softReset []).command = 6 ∧ (packet .softReset []).payload = [] ∧ (running 3).starting = false
    ∧ (running 3).responses.length < 4 ∧ (broadcast .softReset []).broadcast = true := by decide +kernel

theorem witness_CameraPackets :
    (pick idle.ports 3).state = .off ∧ (pick working.ports 0).state = .wait
    ∧ (startPacket 16 4).head? ≠ some 2 ∧ (startPacket 16 4 ++ [0]).length ≠ 17
    ∧ ([2, 0, 0, 0] : List Byte).length < 5 ∧ ([3, 0, 0, 0] : List Byte).length ≠ 3 := by decide +kernel

theorem witness_FrameStartTaken :
    (parseFrameStart (startPacket 16 4)).isSome
    ∧ ((parseFrameStart (startPacket 16 0x18)).map FrameStartFields.kind) = some none
    ∧ ((parseFrameStart (startPacket 32 4)).map FrameStartFields.height) = some 32
    ∧ ((parseFrameStart (startPacket 16 4)).map fun f => (f.kind, f.width, f.height))
      = some (some .normal, (pick working.ports 0).width, (pick working.ports 0).height)
    ∧ (pick working.ports 0).state = .wait
    ∧ (∀ k : Fin 3, (pick working.sourceSlots (sourceSlot 0 k)).receiving = false
      ∧ (pick working.sourceSlots (sourceSlot 0 k)).refs = 0)
    ∧ (let s := { working with sourceSlots := Vector.replicate 12 { SourceSlot.powerOn with refs := 1 } }
      ∀ k : Fin 3, (pick s.sourceSlots (sourceSlot 0 k)).refs ≠ 0)
    ∧ ((pick queued.sourceSlots (sourceSlot 0 0)).refs ≠ 0
      ∧ (pick queued.sourceSlots (sourceSlot 0 1)).refs = 0)
    ∧ (pick (receiving 3 2).ports 0).state = .receive ⟨0, ⟨64, 16, header 4 0⟩, 3, 2⟩
    ∧ (pick (receiving 3 2).ports 0).height < 65536 := by decide +kernel

theorem witness_RepairRun :
    let s := receiving 3 1
    (pick s.ports 0).state = .receive ⟨0, ⟨64, 16, header 4 0⟩, 3, 1⟩ ∧ 1 ≤ (pick s.ports 0).repairLimit
    ∧ 1 + 1 ≤ (pick s.ports 0).repairLimit ∧ (pick s.ports 0).repairLimit < 1 + 2 := by decide +kernel

/-- The fields of a Line as `LineTaken` reads them: its number, and whether it is good for a 64-pixel line. -/
def lineRead (packet : List Byte) : Option (Nat × Bool) :=
  (parseLine packet).map fun l => (l.number, l.crcMatches && 2 * l.pixels.length == 3 * 64)

set_option maxRecDepth 20000 in
theorem witness_LineTaken :
    (pick (receiving 3 1).ports 0).state = .receive ⟨0, ⟨64, 16, header 4 0⟩, 3, 1⟩
    ∧ (pick (receiving 3 1).ports 0).height = 16 ∧ (pick (receiving 3 1).ports 0).width = 64
    ∧ lineRead (linePacket 16 true) = some (16, true) ∧ lineRead (linePacket 2 false) = some (2, false)
    ∧ lineRead (linePacket 3 true) = some (3, true) ∧ lineRead (linePacket 15 true) = some (15, true)
    ∧ lineRead (linePacket 3 false) = some (3, false) ∧ lineRead (linePacket 4 true) = some (4, true) := by
  decide +kernel

theorem witness_FrameEndPosts :
    parseFrameEnd [3, 16, 0] = some 16 ∧ parseFrameEnd [3, 15, 0] = some 15
    ∧ (pick (receiving 13 0).ports 0).state = .receive ⟨0, ⟨64, 16, header 4 0⟩, 13, 0⟩
    ∧ ((pick (receiving 13 0).ports 0).repairLimit < 0 + (16 - 13))
    ∧ 0 + (16 - 14) ≤ (pick (receiving 14 0).ports 0).repairLimit
    ∧ (pick (receiving 16 2).ports 0).state = .receive ⟨0, ⟨64, 16, header 4 0⟩, 16, 2⟩
    ∧ (pick (receiving 16 2).ports 0).height ≤ 16 := by decide +kernel

theorem witness_SetCameraWrites :
    Sent .setCamera ([3] ++ leBytes 2 64 ++ leBytes 2 16 ++ [15, 1] ++ leBytes 2 0 ++ leBytes 2 0 ++ leBytes 2 64
      ++ leBytes 2 16) idle
    ∧ Sent .setCamera ([4] ++ leBytes 2 2049 ++ leBytes 2 1537 ++ [16, 1] ++ leBytes 2 0 ++ leBytes 2 0
      ++ leBytes 2 0 ++ leBytes 2 0) idle
    ∧ Ready idle ∧ (pick idle.ports 3).state = .off
    ∧ (∀ k, (pick idle.sourceSlots (sourceSlot 3 k)).refs = 0)
    ∧ (pick working.ports 0).state ≠ .off ∧ ∃ k, (pick queued.sourceSlots (sourceSlot 0 k)).refs ≠ 0 :=
  ⟨sent rfl rfl, sent rfl rfl, ready rfl rfl, by decide +kernel⟩

theorem witness_CameraEnableAndBlackLevel :
    Sent .cameraEnable [4, 1] idle ∧ Sent .cameraEnable [3, 1] idle ∧ Sent .cameraEnable [0, 0] (receiving 3 1)
    ∧ Sent .setBlackLevel ([4] ++ leBytes 2 65535) idle ∧ Sent .setBlackLevel ([0] ++ leBytes 2 65535) working
    ∧ Ready idle ∧ Ready working ∧ Ready (receiving 3 1) :=
  ⟨sent rfl rfl, sent rfl rfl, sent rfl rfl, sent rfl rfl, sent rfl rfl, ready rfl rfl, ready rfl rfl,
    ready rfl rfl⟩

/-- A Write Descriptor's payload. -/
def descriptorBytes (n base limit granularity type present : Nat) : List Byte :=
  leBytes 1 n ++ leBytes 4 base ++ leBytes 2 limit ++ leBytes 1 granularity ++ leBytes 1 type ++ leBytes 1 present

theorem witness_WriteDescriptorWrites :
    Sent .writeDescriptor (descriptorBytes 63 126976 4095 0 1 1) working
    ∧ Sent .writeDescriptor (descriptorBytes 1 126976 63 1 2 0) working
    ∧ Sent .writeDescriptor (descriptorBytes 1 127040 4095 0 1 1) working
    ∧ Sent .writeDescriptor (descriptorBytes 4 0 0 0 1 1) working
    ∧ Sent .writeDescriptor (descriptorBytes 64 0 4096 2 4 2) working
    ∧ Ready working
    ∧ (granularity? 0 = some .word ∧ granularity? 1 = some .block64 ∧ granularity? 2 = none)
    ∧ (tableType? 1 = some .gain ∧ tableType? 2 = some .mesh ∧ tableType? 4 = none)
    ∧ (126976 % 64 = 0 ∧ 126976 + (4095 + 1) ≤ 131072 ∧ 126976 + (63 + 1) * 64 ≤ 131072
      ∧ 131072 < 127040 + (4095 + 1))
    ∧ ((pick working.descriptors 1).lock = .unlocked ∧ (pick working.descriptors 63).lock = .unlocked
      ∧ (pick working.descriptors 4).lock ≠ .unlocked) :=
  ⟨sent rfl rfl, sent rfl rfl, sent rfl rfl, sent rfl rfl, sent rfl rfl, ready rfl rfl, by decide +kernel⟩

theorem witness_AccessedFlagsRead :
    Sent .readDescriptor [64, 0] working ∧ Sent .readDescriptor [63, 1] working
    ∧ Sent .clearAccessedDescriptor (leBytes 8 (2 ^ 64 - 1)) working ∧ working.noPatchLoad :=
  ⟨sent rfl rfl, sent rfl rfl, sent rfl rfl, (ready rfl rfl : Ready working).noLoad⟩

theorem witness_LockCommands :
    Ready working ∧ (∀ n ∈ [(0 : Byte), 1, 4, 63, 64], Sent .lockDescriptor [n] working
      ∧ Sent .unlockDescriptor [n] working ∧ Sent .lockDownDescriptor [n] working)
    ∧ (pick working.descriptors 1).lock = .unlocked ∧ (pick working.descriptors 4).lock = .locked :=
  ⟨ready rfl rfl, fun _ _ => ⟨sent rfl rfl, sent rfl rfl, sent rfl rfl⟩, by decide +kernel⟩

theorem witness_LocksKept :
    let s := { working with
      descriptors := upd described 1 fun x => { x with lock := .lockedDown }
      window := ⟨3, .bottom, false, true⟩ }
    (pick s.descriptors 1).lock = .lockedDown ∧ s.window.locked = true
    ∧ ∃ t, exec .jobStart s = .next t := ⟨by decide +kernel, rfl, _, rfl⟩

theorem witness_ProtectionWindowSet :
    Sent .setProtectionWindow [7, 1, 1] idle ∧ Sent .setProtectionWindow [8, 2, 2] idle
    ∧ Sent .setProtectionWindow [0, 0, 0] { idle with window := ⟨7, .top, true, true⟩ }
    ∧ Sent .setProtectionWindow [1, 0, 0] (streaming 0) ∧ Sent .protectionLock [] idle
    ∧ Ready idle ∧ Ready { idle with window := ⟨7, .top, true, true⟩ } ∧ Ready (streaming 0)
    ∧ idle.reservation = none ∧ (streaming 0).reservation = some ⟨512, 300⟩
    ∧ (ProtectionWindow.mk 1 .bottom false false).protects 811 = true :=
  ⟨sent rfl rfl, sent rfl rfl, sent rfl rfl, sent rfl rfl, sent rfl rfl, ready rfl rfl, ready rfl rfl,
    ⟨rfl, (fun _ _ _ h => by cases h)⟩, rfl, rfl, by decide +kernel⟩

theorem witness_ProtectedSet :
    (Span.mk 131072 0).first + (Span.mk 131072 0).count ≤ 131072
    ∧ (Span.mk 0 131072).first + (Span.mk 0 131072).count ≤ 131072 := by decide

theorem witness_LoadOpened :
    Sent .loadOpen (leBytes 1 1 ++ leBytes 4 15 ++ leBytes 2 1) working
    ∧ Sent .loadOpen (leBytes 1 1 ++ leBytes 4 15 ++ leBytes 2 2) working
    ∧ Sent .loadOpen (leBytes 1 4 ++ leBytes 4 0 ++ leBytes 2 256) working
    ∧ Sent .loadOpen (leBytes 1 63 ++ leBytes 4 0 ++ leBytes 2 1) working
    ∧ Sent .loadOpen (leBytes 1 64 ++ leBytes 4 0 ++ leBytes 2 257) working
    ∧ (Sent .loadOpen (leBytes 1 1 ++ leBytes 4 0 ++ leBytes 2 1) (streaming 0)
      ∧ Sent .loadOpen (leBytes 1 1 ++ leBytes 4 0 ++ leBytes 2 1) (loading 0 1))
    ∧ working.loadUnit = .idle ∧ (streaming 0).loadUnit = .streaming 5 ⟨512, 300⟩ 0
    ∧ ((pick working.descriptors 1).type ≠ .untyped ∧ (pick working.descriptors 1).lock = .unlocked
      ∧ 15 + 1 ≤ (pick working.descriptors 1).span ∧ (pick working.descriptors 1).span < 15 + 2)
    ∧ ((pick working.descriptors 4).type ≠ .untyped ∧ (pick working.descriptors 4).lock ≠ .unlocked)
    ∧ (pick working.descriptors 63).type = .untyped :=
  ⟨sent rfl rfl, sent rfl rfl, sent rfl rfl, sent rfl rfl, sent rfl rfl, ⟨sent rfl rfl, sent rfl rfl⟩, rfl,
    rfl, by decide +kernel⟩

theorem witness_LoadDataAppends :
    Sent .loadData [] (loading 0 1) ∧ Sent .loadData [1, 2, 3] (loading 0 1)
    ∧ Sent .loadData ([5].flatMap fun w : Word => leBytes 4 w.toNat) (loading 255 256)
    ∧ Sent .loadData ([5].flatMap fun w : Word => leBytes 4 w.toNat) (loading 256 256)
    ∧ (List.replicate 255 (5 : Word)).length + 1 ≤ 256 ∧ 256 < (List.replicate 256 (5 : Word)).length + 1
    ∧ Sent .loadData [] idle ∧ idle.noPatchLoad :=
  ⟨sent rfl rfl, sent rfl rfl, sent rfl rfl, sent rfl rfl, by decide +kernel, by decide +kernel, sent rfl rfl,
    (ready rfl rfl : Ready idle).noLoad⟩

theorem witness_LoadCommitWrites :
    let guarded := { loading 1 1 with window := ⟨1, .bottom, false, false⟩ }
    let pinned := { loading 1 1 with pins := [⟨64, 1⟩] }
    (Sent .loadCommit [] idle ∧ idle.noPatchLoad)
    ∧ (Sent .loadCommit [] (loading 0 1) ∧ 64 + 1 ≤ 131072)
    ∧ (Sent .loadCommit [] guarded ∧ guarded.window.protects 64 = true)
    ∧ (Sent .loadCommit [] pinned ∧ pinned.window.protects 64 = false ∧ ∃ x ∈ pinned.pins,
      x.first ≤ 64 ∧ 64 < x.first + x.count)
    ∧ (Sent .loadCommit [] (loading 1 1) ∧ (loading 1 1).window.protects 64 = false ∧ (loading 1 1).pins = [])
    ∧ storeCanonical (loading 1 1).tableStore = true ∧ storeCanonical tables = true :=
  ⟨⟨sent rfl rfl, (ready rfl rfl : Ready idle).noLoad⟩, ⟨sent rfl rfl, by decide⟩,
    ⟨sent rfl rfl, by decide +kernel⟩, ⟨sent rfl rfl, by decide +kernel, by decide⟩,
    ⟨sent rfl rfl, by decide +kernel, rfl⟩, by decide +kernel, by decide +kernel⟩

theorem witness_LoadsCancelled :
    Sent .loadCancel [] (loading 1 1) ∧ (loading 1 1).loadUnit = .loading 1 ⟨64, 1⟩ [5]
    ∧ Sent .loadCancel [] idle ∧ idle.noPatchLoad
    ∧ Sent .streamCancel [] (streaming 256) ∧ (streaming 256).loadUnit = .streaming 5 ⟨512, 300⟩ 256
    ∧ Sent .streamCancel [] idle ∧ idle.loadUnit = .idle
    ∧ (Sent .loadData ((List.replicate 257 (5 : Word)).flatMap fun w => leBytes 4 w.toNat) (loading 0 256)
      ∧ 256 < (List.replicate 257 (5 : Word)).length) :=
  ⟨sent rfl rfl, rfl, sent rfl rfl, (ready rfl rfl : Ready idle).noLoad, sent rfl rfl, rfl, sent rfl rfl, rfl,
    sent rfl rfl, by decide +kernel⟩

theorem witness_StreamOpened :
    let payload := fun n offset total => leBytes 1 n ++ leBytes 4 offset ++ leBytes 4 total
    let guarded := { working with window := ⟨1, .bottom, false, false⟩ }
    let pinned := { working with pins := [⟨64, 1⟩] }
    (Sent .streamOpen (payload 1 0 1) (streaming 0) ∧ Sent .streamOpen (payload 1 0 1) (loading 0 1))
    ∧ (Sent .streamOpen (payload 1 255 1) working ∧ 255 % 256 ≠ 0)
    ∧ Sent .streamOpen (payload 1 0 131073) working ∧ Sent .streamOpen (payload 0 0 0) working
    ∧ (Sent .streamOpen (payload 4 0 1) working ∧ (pick working.descriptors 4).lock ≠ .unlocked)
    ∧ (Sent .streamOpen (payload 1 0 17) working ∧ (pick working.descriptors 1).span < 0 + 17)
    ∧ (Sent .streamOpen (payload 1 0 16) guarded ∧ guarded.window.protects 64 = true)
    ∧ (Sent .streamOpen (payload 1 0 16) pinned ∧ pinned.window.protects 64 = false)
    ∧ (Sent .streamOpen (payload 1 0 16) working ∧ working.loadUnit = .idle ∧ working.pins = []
      ∧ (pick working.descriptors 1).type ≠ .untyped ∧ (pick working.descriptors 1).lock = .unlocked
      ∧ 0 + 16 ≤ (pick working.descriptors 1).span ∧ working.window.protects 64 = false) :=
  ⟨⟨sent rfl rfl, sent rfl rfl⟩, ⟨sent rfl rfl, by decide⟩, sent rfl rfl, sent rfl rfl,
    ⟨sent rfl rfl, by decide +kernel⟩, ⟨sent rfl rfl, by decide +kernel⟩, ⟨sent rfl rfl, by decide +kernel⟩, ⟨sent rfl rfl, by decide +kernel⟩,
    sent rfl rfl, rfl, rfl, by decide +kernel⟩

theorem witness_StreamDataWrites :
    let words := fun n => (List.replicate n (5 : Word)).flatMap fun w => leBytes 4 w.toNat
    (Sent .streamData [] idle ∧ Sent .streamData [] (loading 0 1))
    ∧ (Sent .streamData (words 255) (streaming 0) ∧ (words 255).length ≠ 4 * min 256 (300 - 0))
    ∧ (Sent .streamData (words 256) (streaming 0) ∧ (List.replicate 256 (5 : Word)).length = min 256 (300 - 0)
      ∧ 256 < 300 - 0)
    ∧ (Sent .streamData (words 44) (streaming 256) ∧ (List.replicate 44 (5 : Word)).length = min 256 (300 - 256)
      ∧ 300 - 256 ≤ 256)
    ∧ 512 + 300 ≤ 131072 ∧ storeCanonical (streaming 256).tableStore = true :=
  ⟨⟨sent rfl rfl, sent rfl rfl⟩, ⟨sent rfl rfl, by decide +kernel⟩, ⟨sent rfl rfl, by decide +kernel⟩,
    ⟨sent rfl rfl, by decide +kernel⟩, by decide, rfl⟩

theorem witness_ReadTableReturns :
    let payload := fun n offset count => leBytes 1 n ++ leBytes 4 offset ++ leBytes 1 count
    Sent .readTable (payload 64 0 1) working ∧ Sent .readTable (payload 1 0 65) working
    ∧ Sent .readTable (payload 1 15 1) working ∧ Sent .readTable (payload 1 16 1) working
    ∧ 15 + 1 ≤ (pick working.descriptors 1).span ∧ (pick working.descriptors 1).span < 16 + 1
    ∧ (pick working.descriptors 1).base + (pick working.descriptors 1).span ≤ 131072 :=
  ⟨sent rfl rfl, sent rfl rfl, sent rfl rfl, sent rfl rfl, by decide +kernel⟩

/-- The payload of a Write View for view `v`. -/
def viewPayload (v : Nat) (p : ViewParams) : List Byte := leBytes 1 v ++ viewParamBytes p

theorem witness_WriteViewRanges :
    (Sent .writeView (List.replicate 34 255) idle ∧ Ready idle ∧ (List.replicate 34 (255 : Byte)).length = 34
      ∧ 15 < num (List.replicate 34 255) 0 1)
    ∧ (Sent .writeView (viewPayload 15 activeView.params) idle
      ∧ (viewPayload 15 activeView.params).length = 34) :=
  ⟨⟨sent rfl rfl, ready rfl rfl, by decide +kernel⟩, sent rfl rfl, by decide +kernel⟩

theorem witness_WriteViewStores :
    let moved := { activeView.params with job := { activeView.params.job with slotBase := 13 } }
    (Sent .writeView (viewPayload 0 moved) working ∧ Ready working ∧ viewParamsAt (viewPayload 0 moved) = some moved
      ∧ (pick working.views 0).state ≠ .disabled ∧ activeView.params.job.slotBase ≠ moved.job.slotBase)
    ∧ (Sent .writeView (viewPayload 15 activeView.params) working
      ∧ viewParamsAt (viewPayload 15 activeView.params) = some activeView.params
      ∧ (pick working.views 15).state = .disabled
      ∧ activeView.params.job.slotBase ≤ 12 ∧ 12 < activeView.params.job.slotBase + 1)
    ∧ (Sent .writeView (viewPayload 15 moved) working ∧ viewParamsAt (viewPayload 15 moved) = some moved)
    ∧ num (viewPayload 15 moved) 0 1 = 15 :=
  ⟨⟨sent rfl rfl, ready rfl rfl, by decide +kernel⟩, ⟨sent rfl rfl, by decide +kernel⟩,
    ⟨sent rfl rfl, by decide +kernel⟩, by decide +kernel⟩

/-- `activeView` is sound. -/
theorem activeView_fits : ViewFits activeView where
  buffer := rfl
  range := fun _ => by decide
  geometry := fun _ => by decide
  fill := by decide
  forwarding := ⟨rfl, rfl, rfl⟩
  active := fun _ => by decide
  disabled := fun h => by cases h

theorem witness_WriteViewEncoding :
    ViewFits activeView ∧ 64 ≤ activeView.params.job.width ∧ activeView.params.job.width ≤ 2048
    ∧ activeView.params.job.width % 16 = 0 ∧ 16 ≤ activeView.params.job.height
    ∧ activeView.params.job.height ≤ 2048 ∧ ascendingLevels (usedEntries activeView.params.job.gainSet) = true
    ∧ activeView.params.forwardClass = .every := ⟨activeView_fits, by decide +kernel⟩

theorem witness_ReadViewReturns : Sent .readView [16] working ∧ Sent .readView [15] working :=
  ⟨sent rfl rfl, sent rfl rfl⟩

theorem witness_ActivateAndHold :
    Ready working ∧ ∀ n ∈ [(0 : Byte), 15, 16], Sent .viewActivate [n] working ∧ Sent .viewHold [n] working :=
  ⟨ready rfl rfl, fun _ _ => ⟨sent rfl rfl, sent rfl rfl⟩⟩

theorem witness_ViewDisabled :
    Sent .viewDisable [16] (running 3) ∧ Sent .viewDisable [0] (running 3) ∧ Ready (running 3) ∧ (∃ f ∈ (running 3).flight, f.job.view = 0)
    ∧ Sent .viewDisable [15] queued ∧ Ready queued ∧ queued.flight = none :=
  ⟨sent rfl rfl, sent rfl rfl, ready rfl rfl, ⟨flight 3, rfl, rfl⟩, sent rfl rfl, ready rfl rfl, rfl⟩

theorem queued_startable : Startable job [job] queued :=
  ⟨rfl, rfl, by decide, (fun _ h => by cases h)⟩

theorem witness_JobStartEnds :
    let heldSlot := { queued with outputSlots := upd queued.outputSlots 0 fun x => { x with held := true } }
    let noMesh := { queued with descriptors := Vector.replicate 64 Descriptor.powerOn }
    (Startable job [job] heldSlot ∧ (pick heldSlot.views 0).writesNext 0
      ∧ (pick heldSlot.outputSlots 0).held = true)
    ∧ (Startable job [job] noMesh ∧ (pick noMesh.outputSlots 0).held = false
      ∧ (latchTables noMesh activeView.params.job 4).meshFailure = some .absent) :=
  ⟨⟨⟨rfl, rfl, by decide, (fun _ h => by cases h)⟩, rfl, by decide +kernel⟩,
    ⟨rfl, rfl, by decide, (fun _ h => by cases h)⟩, by decide +kernel⟩

theorem witness_JobStartRuns :
    Startable job [job] queued ∧ (pick queued.views 0).writesNext 0 ∧ (pick queued.outputSlots 0).held = false
    ∧ (latchTables queued activeView.params.job 4).mesh = some meshLatch
    ∧ meshOf meshLatch = some ⟨64, 5, 3, 4⟩ := ⟨queued_startable, rfl, by decide +kernel⟩

theorem witness_TablesValidated :
    (pick working.descriptors 2).present = false ∧ (pick working.descriptors 1).present = true
    ∧ working.reservation = none
    ∧ validate working .mesh 64 16 (pick working.descriptors 1) = .usable (.mesh 5 3 4)
    ∧ validate working .mesh 80 16 (pick working.descriptors 1) = .failed .format
    ∧ validate working .gain 64 16 (pick working.descriptors 3) = .usable (.gain 2 2 6)
    ∧ validate working .gain 64 16 (pick working.descriptors 4) = .failed .format
    ∧ (∃ t ∈ (streaming 0).reservation, ∃ a, t.first ≤ a ∧ a < t.first + t.count
      ∧ (pick (streaming 0).descriptors 5).base ≤ a
      ∧ a < (pick (streaming 0).descriptors 5).base + (pick (streaming 0).descriptors 5).span) :=
  ⟨by decide +kernel, by decide +kernel, rfl, by decide +kernel, by decide +kernel, by decide +kernel,
    by decide +kernel, ⟨512, 300⟩, rfl, 811, by decide, by decide, by decide +kernel, by decide +kernel⟩

theorem witness_GainSelected :
    let es : List GainEntry := [⟨2, 3⟩, ⟨6, 4⟩]
    let latch := fun (n : Fin 64) (level : Fin 8) =>
      GainLatch.mk level ⟨n, pick working.descriptors n, validate working .gain 64 16 (pick working.descriptors n)⟩
    ascendingLevels es = true ∧ es.head? = some ⟨2, 3⟩ ∧ es.getLast? = some ⟨6, 4⟩
    ∧ ((2 : Fin 8) ≤ 2 ∧ (6 : Fin 8) ≤ 7 ∧ (2 : Fin 8) < 3 ∧ (3 : Fin 8) < 6)
    ∧ surfaceOf (latch 3 2).table = some ⟨256, 2, 2, 6⟩ ∧ surfaceOf (latch 4 6).table = none := by decide +kernel

theorem witness_OutputPixelWritten :
    (running 1023).flight = some (flight 1023)
    ∧ (flight 1023).produced < (flight 1023).params.width * (flight 1023).params.height := ⟨rfl, by decide⟩

theorem witness_JobEnds :
    (running 1024).flight = some (flight 1024)
    ∧ (flight 1024).params.width * (flight 1024).params.height ≤ (flight 1024).produced
    ∧ (running 1024).findRecord (flight 1024).record = some inProgress
    ∧ { running 1024 with jobs := [] }.jobs = [] ∧ idle.flight = none ∧ idle.jobs = []
    ∧ (flight 1023).produced < (flight 1023).params.width * (flight 1023).params.height :=
  ⟨rfl, by decide, by decide +kernel, rfl, rfl, rfl, by decide⟩

theorem witness_EngineAborts :
    Sent .engineAbort [flagByte true] (running 3) ∧ Sent .engineAbort [flagByte false] (running 3)
    ∧ Sent .engineAbort [flagByte false] idle ∧ Ready (running 3) ∧ Ready idle ∧ idle.jobs = [] :=
  ⟨sent rfl rfl, sent rfl rfl, sent rfl rfl, ready rfl rfl, ready rfl rfl, rfl⟩

theorem witness_AdvanceAndSelect :
    (pick { working with views := upd working.views 0 fun w =>
        { w with params := { w.params with advanceOnDegraded := true } } }.views 0).params.advanceOnDegraded = true
    ∧ (pick working.views 0).params.advanceOnDegraded = false := by decide +kernel

/-- A full Forward Queue: one entry of priority 1 behind 63 of priority 2. -/
def full : State := { keeping with forwardQueue := List.replicate 63 entry ++ [{ entry with priority := 1 }] }

theorem witness_OfferJoins :
    (keeping.forwardQueue.Pairwise fun x y => y.priority ≤ x.priority) ∧ keeping.forwardQueue.length < 64
    ∧ (full.forwardQueue.Pairwise fun x y => y.priority ≤ x.priority) ∧ 64 ≤ full.forwardQueue.length
    ∧ full.forwardQueue = List.replicate 63 entry ++ { entry with priority := 1 } :: []
    ∧ (∀ x ∈ full.forwardQueue, 1 ≤ x.priority) ∧ (∀ x ∈ List.replicate 63 entry, 1 < x.priority)
    ∧ (1 ≤ entry.priority) ∧ { entry with priority := 0 }.priority < 1 := by decide +kernel

theorem witness_LocatedSample : 1 ≤ 2048 ∧ 1 ≤ 1536 ∧ 32752 ≤ (2048 - 1) * 16 ∧ 24560 ≤ (1536 - 1) * 16
    ∧ ∀ i j : Nat, (fun _ _ => 4095 : Nat → Nat → Nat) i j ≤ 4095 := by simp

theorem witness_Levelled :
    (0 < 2000 ∧ 0 < 2500 ∧ 3277 * (2 * 2500) ≤ 2 * 2000 * 4096 + 2500 ∧ 2 * 2000 * 4096 + 2500 < 3278 * (2 * 2500)
      ∧ 1024 ≤ 3277 ∧ 3277 ≤ 65535)
    ∧ (819 * (2 * 10000) ≤ 2 * 2000 * 4096 + 10000 ∧ 2 * 2000 * 4096 + 10000 < 820 * (2 * 10000) ∧ 819 < 1024)
    ∧ (65536 * (2 * 125) ≤ 2 * 2000 * 4096 + 125 ∧ 2 * 2000 * 4096 + 125 < 65537 * (2 * 125) ∧ 65535 < 65536)
    ∧ (2 ≤ (Surface.mk 256 2 2 6).gw ∧ 2 ≤ (Surface.mk 256 2 65 3).gh ∧ 256 ≤ 256)
    ∧ (1048320 ≤ 1048320 ∧ 65535 ≤ 65535) := by decide

theorem witness_TonedAndTallied :
    4095 ≤ 4095 ∧ inField 2048 1536 (locate referenceStore referenceFlight 37 21) = true
    ∧ inField 4 4 (locate referenceStore { referenceFlight with width := 4, height := 4 } 37 21) = false
    ∧ referenceFlight.params.fill ≤ 1023 ∧ 1023 < 16 * 64 ∧ 255 < 16 * 16 := by decide +kernel

theorem witness_RecordsAndTime :
    Sent .readRecords (leBytes 4 0xFFFFFFFF ++ [8]) keeping ∧ Sent .readRecords (leBytes 4 0 ++ [0]) keeping
    ∧ Sent .readRecords (leBytes 4 0 ++ [9]) keeping
    ∧ Sent .setTimeTag (leBytes 4 0xFFFFFFFF ++ [64]) idle ∧ Sent .setTimeTag (leBytes 4 0 ++ [3]) idle
    ∧ idle.noPatchLoad
    ∧ ((broadcast .setTimeTag (leBytes 4 5 ++ [1])).broadcast = true
      ∧ (broadcast .setTimeTag (leBytes 4 5 ++ [1])).command = 32)
    ∧ 64 ∈ [1, 2, 4, 8, 16, 32, 64] ∧ 3 ∉ [1, 2, 4, 8, 16, 32, 64] :=
  ⟨sent rfl rfl, sent rfl rfl, sent rfl rfl, sent rfl rfl, sent rfl rfl, (ready rfl rfl : Ready idle).noLoad,
    by decide⟩

theorem witness_Recalled :
    (Sent .recallLatest [16] keeping ∧ Sent .recallLatest [15] keeping ∧ (pick keeping.views 15).lastGood = none)
    ∧ (Sent .recallLatest [0] keeping ∧ (pick keeping.views 0).lastGood = some 0)
    ∧ Sent .recallFrame (leBytes 4 0) keeping ∧ Ready keeping
    ∧ (∀ r ∈ keeping.records, r.number ≠ 1) ∧ keeping.findRecord 0 = some kept
    ∧ (kept.status = .complete ∧ kept.mark = some ⟨0, 1⟩)
    ∧ ((running 3).findRecord 0 = some inProgress ∧ inProgress.status ≠ .complete)
    ∧ { keeping with flight := some (flight 3) }.movedOn ⟨0, 1⟩
    ∧ ¬ keeping.movedOn ⟨0, 1⟩ ∧ keeping.forwardQueue.length < 64
    ∧ (∃ t ∈ (sending 3 .whole).transmission, t.entry.record = 0)
    ∧ (64 ≤ full.forwardQueue.length ∧ ∃ x ∈ full.forwardQueue, x.priority ≤ 1) :=
  ⟨⟨sent rfl rfl, sent rfl rfl, by decide +kernel⟩, ⟨sent rfl rfl, by decide +kernel⟩, sent rfl rfl,
    ready rfl rfl, by decide +kernel, by decide +kernel, by decide +kernel, by decide +kernel,
    .inl ⟨flight 3, rfl, rfl⟩, fun h => by
      rcases h with ⟨f, h, _⟩ | h
      · cases h
      · exact h (by decide +kernel),
    by decide, ⟨_, rfl, rfl⟩, by decide +kernel⟩

theorem witness_PauseResumeFlush :
    Sent .uplinkPause [] idle ∧ Sent .uplinkResume [] idle ∧ Sent .uplinkFlush [] (sending 3 .whole)
    ∧ Sent .uplinkFlush [] (sending 3 .reset) ∧ Ready idle ∧ Ready (sending 3 .whole)
    ∧ Ready (sending 3 .reset) :=
  ⟨sent rfl rfl, sent rfl rfl, sent rfl rfl, sent rfl rfl, ready rfl rfl, ready rfl rfl, ready rfl rfl⟩

theorem nothing_relayed {s : State} (h : s.relayBuffer = []) : ¬ s.relayWaiting := by
  simp [State.relayWaiting, h]

theorem witness_ArbiterOrder :
    let relaying := { idle with relayBuffer := List.replicate 64 0 }
    let timed := { idle with relayBuffer := [0], relayInterval := .elapsed }
    let paused := { keeping with paused := true }
    ({ idle with responses := [⟨7, 1, .ok, []⟩] }.responses = [⟨7, 1, .ok, []⟩])
    ∧ (relaying.responses = [] ∧ relaying.relayWaiting) ∧ (timed.responses = [] ∧ timed.relayWaiting)
    ∧ (¬ { idle with notices := [.recordRollover 0] }.relayWaiting)
    ∧ (ImagesNext paused ∧ paused.paused = true ∧ paused.transmission = none) :=
  ⟨rfl, ⟨rfl, .inl (by decide)⟩, ⟨rfl, .inr ⟨by decide, rfl⟩⟩, nothing_relayed rfl,
    ⟨rfl, nothing_relayed rfl, rfl⟩, rfl, rfl⟩

theorem witness_Transmissions :
    (∀ v x, ImagesNext (sending v x)) ∧ (sending 15 .whole).transmission = some ⟨entry, 15, 15, .whole⟩
    ∧ (sending 15 .whole).paused = false ∧ 15 < entry.height ∧ entry.height ≤ 16
    ∧ (sending 3 .flushed).transmission = some ⟨entry, 3, 3, .flushed⟩
    ∧ (sending 3 .reset).transmission = some ⟨entry, 3, 3, .reset⟩
    ∧ (let s := { keeping with forwardQueue := [{ entry with record := 5 }, entry] }
      ImagesNext s ∧ s.transmission = none ∧ s.paused = false
      ∧ s.forwardQueue = [{ entry with record := 5 }] ++ entry :: [] ∧ (∀ r ∈ s.records, r.number ≠ 5)
      ∧ s.findRecord entry.record = some kept ∧ ¬ s.movedOn entry.mark)
    ∧ ImagesNext keeping ∧ keeping.forwardQueue = [] ++ [] :=
  ⟨fun _ _ => ⟨rfl, nothing_relayed rfl, rfl⟩, rfl, rfl, by decide, by decide, rfl, rfl,
    ⟨⟨rfl, nothing_relayed rfl, rfl⟩, rfl, rfl, rfl, by decide +kernel, by decide +kernel, fun h => by
      rcases h with ⟨f, h, _⟩ | h
      · cases h
      · exact h (by decide +kernel)⟩,
    ⟨rfl, nothing_relayed rfl, rfl⟩, rfl⟩

theorem witness_UplinkLayouts :
    ((6 : Byte), leBytes 4 0 ++ leBytes 2 16 ++ [flagByte false])
      ∈ [((6 : Byte), leBytes 4 (0 : RecordNumber).toNat ++ leBytes 2 16 ++ [flagByte false])]
    ∧ (0x3FF : Cell).toNat < 1024 ∧ (0xFF : Cell).toNat < 256 ∧ (List.replicate 64 (0 : Cell)).length % 4 = 0
    ∧ kept.repairs < 256 ∧ kept.statistics = some ⟨400, 12, 48⟩ ∧ 400 < 65536 ∧ kept.histogram = none := by
  decide +kernel

theorem witness_DownlinkDispatched : idle.nodeAddress ≠ 255 ∧ (List.replicate 1040 (0 : Byte)).length ≤ 1040 := by
  decide +kernel

theorem witness_StatusAndCounters :
    Sent .identify [] idle ∧ Sent .getStatus [] (loading 0 1)
    ∧ (Sent .clearStatus (leBytes 2 511) idle ∧ Sent .clearStatus (leBytes 2 512) idle ∧ Ready idle)
    ∧ (∀ k ∈ [([0, 3, 1] : List Byte), [0, 4, 0], [1, 15, 1], [1, 16, 0], [2, 255, 1], [3, 0, 0], [0, 0, 2]],
      Sent .readCounters k working)
    ∧ Sent .setNoticeMask [31] idle ∧ Sent .setNoticeMask [32] idle :=
  ⟨sent rfl rfl, sent rfl rfl, ⟨sent rfl rfl, sent rfl rfl, ready rfl rfl⟩, fun _ _ => sent rfl rfl, sent rfl rfl,
    sent rfl rfl⟩

theorem witness_RelayAndNotices :
    (List.replicate 255 (0 : Byte)).length < 256 ∧ 256 ≤ (List.replicate 256 (0 : Byte)).length
    ∧ ([5] : List Byte) ≠ [] ∧ idle.relayBuffer = [] ∧ idle.noticeMask.getLsbD 4 = true
    ∧ { idle with noticeMask := 0 }.noticeMask.getLsbD 0 = false ∧ idle.notices.length < 16
    ∧ 16 ≤ (List.replicate 16 (Notice.recordRollover 0)).length := by decide +kernel

/-- `running` with an OUTPUT_PIXEL at the front. -/
def stepping : State := { running 3 with pending := [.outputPixel] }

theorem stepping_views (v : Fin 16) :
    pick stepping.views v = activeView ∧ v = 0 ∨ pick stepping.views v = View.powerOn ∧ v ≠ 0 := by
  revert v; decide +kernel

theorem stepping_tables : TablesSound stepping where
  descriptors := by decide +kernel
  null := by decide +kernel
  loads := trivial
  idle := fun h => by cases h
  pinCount := by decide
  pinWords := by decide
  reserved := fun _ h => by cases h

/-- `running` is sound in its records whatever the pixels produced, and its job's tallies count them. -/
theorem running_records (n : Nat) (q : List Instr) : RecordsSound { running n with pending := q } where
  bound := (by decide : 1 ≤ 1024)
  numbers := (by decide +kernel : [(0 : RecordNumber)] = [1 - 1 + 0])
  newest := by rintro f ⟨⟩; exact ⟨List.cons_ne_nil _ _, rfl⟩
  inProgress := by
    intro r h
    rw [List.mem_singleton.1 h]
    exact ⟨fun _ => ⟨flight n, rfl, rfl⟩, fun _ => rfl⟩
  parts := by
    intro r h
    rw [List.mem_singleton.1 h]
    exact ⟨rfl, rfl, rfl, rfl⟩

theorem running_tallies (n : Nat) (q : List Instr) : TalliesSound { running n with pending := q } where
  counted := by rintro f ⟨⟩; exact Nat.zero_add n
  saturated := by rintro f ⟨⟩; exact Nat.le_refl 0
  kept := by rintro f ⟨⟩; rfl
  binned := by rintro f ⟨⟩ b h; cases h

/-- A job at its end, with an entry of an older record waiting. -/
def ending : State :=
  { running 1024 with pending := [.jobEnd], forwardQueue := [{ entry with record := 0xFFFFFFFF }] }

theorem witness_MemoryAndQueuesKept :
    (Memory.wf stepping = true ∧ QueuesBounded stepping ∧ ∃ t, step stepping = .next t)
    ∧ Memory.wf ending = true ∧ QueuesBounded ending ∧ RecordsSound ending ∧ ForwardsDistinct ending
    ∧ (∀ e ∈ ending.forwardQueue, e.record ≠ ending.nextRecord)
    ∧ ∃ t, step ending = .next t ∧ t.forwardQueue.length = 2 := by
  refine ⟨⟨by decide +kernel, ⟨by decide, by decide, by decide, by decide, by decide, by decide, by decide,
    by decide⟩, _, rfl⟩, by decide +kernel, ⟨by decide, by decide, by decide, by decide, by decide, by decide,
    by decide, by decide⟩, ?_, ⟨by decide, ?_⟩, by decide, _, rfl, by decide +kernel⟩
  · have h := running_records 1024 []
    exact ⟨h.bound, h.numbers, h.newest, h.inProgress, h.parts⟩
  · rintro f ⟨⟩; decide

theorem witness_SlotsKept :
    ReferencesCounted stepping ∧ IntakeSound stepping ∧ HoldsSound stepping ∧ (∃ t, step stepping = .next t)
    ∧ (∀ strap rest, stepping.pending ≠ .powerOnReset strap :: rest) ∧ 0 < (pick stepping.sourceSlots 0).refs := by
  refine ⟨by unfold ReferencesCounted; decide +kernel, ⟨by decide +kernel, by decide +kernel⟩, ⟨fun x => ?_, ?_⟩,
    ⟨_, rfl⟩, (fun _ _ h => by cases h), by decide +kernel⟩
  · have h : (pick stepping.outputSlots x).held = false := by revert x; decide +kernel
    rw [h]
    exact ⟨(fun h => by cases h), (fun ⟨_, h, _⟩ => by cases h)⟩
  · rintro f ⟨⟩
    decide +kernel

theorem witness_TablesKept :
    TablesSound stepping ∧ (∃ t, step stepping = .next t) ∧ (∃ x ∈ stepping.pins, x.first ≤ 79 ∧ 79 < x.first + x.count)
    ∧ (∀ strap rest, stepping.pending ≠ .powerOnReset strap :: rest)
    ∧ (∀ rest, stepping.pending ≠ .startupSweepEnd :: rest) :=
  ⟨stepping_tables, ⟨_, rfl⟩, by decide, (fun _ _ h => by cases h), (fun _ h => by cases h)⟩

theorem witness_ViewsAndJobsKept : TablesSound stepping ∧ ViewsSound stepping ∧ JobsSound stepping := by
  refine ⟨stepping_tables, ⟨fun v => ?_, by decide +kernel⟩, ⟨by decide +kernel, ?_, fun v h => ?_⟩⟩
  · rcases stepping_views v with ⟨h, _⟩ | ⟨h, _⟩ <;> rw [h]
    · exact activeView_fits
    · exact ⟨⟨rfl, rfl⟩, fun h => absurd rfl h, fun h => absurd rfl h, by decide, ⟨rfl, rfl, rfl⟩,
        (fun h => by cases h), fun _ => by decide⟩
  · rintro f ⟨⟩
    decide +kernel
  · rcases stepping_views v with ⟨e, _⟩ | ⟨e, _⟩ <;> rw [e] at h <;> cases h

theorem witness_RecordsKept :
    (RecordsSound stepping ∧ TalliesSound stepping ∧ ∃ t, step stepping = .next t)
    ∧ (let s := { running 1024 with pending := [.jobEnd] }
      RecordsSound s ∧ TalliesSound s ∧ s.flight = some (flight 1024)
      ∧ ∃ t, step s = .next t ∧ ∃ r ∈ t.records, r.number = 0 ∧ r.status = .degraded)
    ∧ RecordsSound { keeping with pending := [.timeTagTick] } ∧ kept.status ≠ .inProgress := by
  refine ⟨⟨running_records 3 _, running_tallies 3 _, _, rfl⟩,
    ⟨running_records 1024 _, running_tallies 1024 _, rfl, _, rfl, ?_⟩,
    ⟨by decide, by decide +kernel, (fun _ h => by cases h), ?_, ?_⟩, by decide⟩
  · decide +kernel
  · intro r h
    rw [List.mem_singleton.1 h]
    exact ⟨(fun h => by cases h), (fun ⟨_, h, _⟩ => by cases h)⟩
  · intro r h
    rw [List.mem_singleton.1 h]
    exact ⟨rfl, rfl, rfl⟩

end Sys2Proof.Tests
end

section
/-! PROOFS. The camera packets' layouts and the packets a port ignores (spec/01, spec/11 R174). -/

namespace Sys2Proof.Machine

/-! ### The bytes of the camera packets (R7, R174) -/

/-- A number in two parts, joined again. -/
theorem append_ofNat (v w x : Nat) : BitVec.ofNat v (x / 2 ^ w) ++ BitVec.ofNat w x = BitVec.ofNat (v + w) x := by
  apply BitVec.eq_of_toNat_eq
  rw [BitVec.toNat_append, ← Nat.shiftLeft_add_eq_or_of_lt (BitVec.isLt _), Nat.shiftLeft_eq, BitVec.toNat_ofNat,
    BitVec.toNat_ofNat, BitVec.toNat_ofNat, Nat.add_comm v w, Nat.pow_add, Nat.mod_mul, Nat.add_comm, Nat.mul_comm]

/-- A number's own bits. -/
theorem ofNat_toNat_self {w : Nat} (x : BitVec w) : BitVec.ofNat w x.toNat = x :=
  (BitVec.ofNat_toNat w x).trans (BitVec.setWidth_eq x)

/-- A half's two bytes, joined again. -/
theorem append_half_bytes (x : Half) : BitVec.ofNat 8 (x.toNat / 256) ++ BitVec.ofNat 8 x.toNat = x :=
  (append_ofNat 8 8 x.toNat).trans (ofNat_toNat_self x)

/-- The three bytes of a 24-bit number, joined again. -/
theorem append_three_bytes (x : Nat) :
    BitVec.ofNat 8 (x / 256 / 256) ++ BitVec.ofNat 8 (x / 256) ++ BitVec.ofNat 8 x = BitVec.ofNat 24 x :=
  (congrArg (· ++ BitVec.ofNat 8 x) (append_ofNat 8 8 (x / 256))).trans (append_ofNat 16 8 x)

/-- The two axis offsets, packed in 24 bits (R174). -/
theorem extract_axes (x y : BitVec 12) :
    (BitVec.ofNat 24 (x.toNat + 4096 * y.toNat)).extractLsb' 0 12 = x
    ∧ (BitVec.ofNat 24 (x.toNat + 4096 * y.toNat)).extractLsb' 12 12 = y := by
  have hx := x.isLt
  have hy := y.isLt
  constructor <;> apply BitVec.eq_of_toNat_eq <;>
    simp only [BitVec.extractLsb'_toNat, BitVec.toNat_ofNat, Nat.shiftRight_eq_div_pow] <;> omega

/-- The byte of a Frame Start that packs its flags: level, kind code and marker (R174). -/
theorem extract_kind_byte (level : Fin 8) (kind : Fin 4) (marker : Bool) :
    let attr := BitVec.ofNat 8 (level.val + 8 * kind.val + if marker then 32 else 0)
    (attr.extractLsb' 0 3).toFin = level ∧ (attr.extractLsb' 3 2).toNat = kind.val ∧ attr.getLsbD 5 = marker := by
  revert level kind marker
  decide

/-- A Frame Start's fields read back from its layout (R174). -/
theorem parseFrameStart_layout (sequence exposure : Half) {width height : Nat} (level : Fin 8) (kind : Fin 4)
    (marker : Bool) (ox oy : BitVec 12) (odometer : Word) (hw : width < 65536) (hh : height < 65536) :
    parseFrameStart (1 :: leBytes 2 sequence.toNat ++ leBytes 2 width ++ leBytes 2 height
        ++ leBytes 2 exposure.toNat ++ leBytes 1 (level.val + 8 * kind.val + if marker then 32 else 0)
        ++ leBytes 3 (ox.toNat + 4096 * oy.toNat) ++ leBytes 4 odometer.toNat)
      = some ⟨sequence, width, height, exposure, level, frameKind? kind.val, marker, ox, oy, odometer⟩ := by
  obtain ⟨hlevel, hkind, hmarker⟩ := extract_kind_byte level kind marker
  obtain ⟨hox, hoy⟩ := extract_axes ox oy
  have hw' : leNat (leBytes 2 width) = width := leNat_leBytes hw
  have hh' : leNat (leBytes 2 height) = height := leNat_leBytes hh
  simp only [leBytes] at hw' hh'
  simp only [leBytes, List.cons_append, List.nil_append, parseFrameStart, if_true, hlevel, hkind, hmarker, hw', hh',
    append_half_bytes, append_bytes]
  simp only [append_three_bytes, hox, hoy]

/-- A Line reads back from its layout, with a matching CRC-16 (R7, R174). -/
theorem parseLine_layout {n : Nat} (field : List Byte) (hn : n < 65536) :
    parseLine (2 :: leBytes 2 n ++ field ++ leBytes 2 (crc16 (leBytes 2 n ++ field)).toNat)
      = some ⟨n, field, true⟩ := by
  have hn' : leNat (leBytes 2 n) = n := leNat_leBytes hn
  simp only [leBytes] at hn'
  simp [leBytes, parseLine, hn']

/-- Two pixel codes read back from their three bytes (R174). -/
theorem unpackPixels_pair (a b : Pixel) (rest : List Byte) :
    unpackPixels (BitVec.ofNat 8 a.toNat :: BitVec.ofNat 8 (a.toNat / 256 + 16 * b.toNat)
      :: BitVec.ofNat 8 (b.toNat / 16) :: rest) = a :: b :: unpackPixels rest := by
  have ha := a.isLt
  have hb := b.isLt
  have hlow : (BitVec.ofNat 8 (a.toNat / 256 + 16 * b.toNat)).extractLsb' 0 4 = BitVec.ofNat 4 (a.toNat / 2 ^ 8) := by
    apply BitVec.eq_of_toNat_eq
    simp only [BitVec.extractLsb'_toNat, BitVec.toNat_ofNat, Nat.shiftRight_eq_div_pow]
    omega
  have hhigh : (BitVec.ofNat 8 (a.toNat / 256 + 16 * b.toNat)).extractLsb' 4 4 = BitVec.ofNat 4 b.toNat := by
    apply BitVec.eq_of_toNat_eq
    simp only [BitVec.extractLsb'_toNat, BitVec.toNat_ofNat, Nat.shiftRight_eq_div_pow]
    omega
  rw [unpackPixels, hlow, hhigh]
  congr 1
  · exact (append_ofNat 4 8 a.toNat).trans (ofNat_toNat_self a)
  · congr 1
    exact (append_ofNat 8 4 b.toNat).trans (ofNat_toNat_self b)

/-- A Frame End's count reads back (R174). -/
theorem parseFrameEnd_leBytes {n : Nat} (h : n < 65536) : parseFrameEnd (3 :: leBytes 2 n) = some n := by
  have := leNat_leBytes (k := 2) h
  simpa [parseFrameEnd, leBytes] using this

/-! ### The packets a port ignores (R3) -/

/-- A packet of another kind byte or length is no Frame Start. -/
theorem parseFrameStart_eq_none {packet : List Byte} (h : packet.head? ≠ some 1 ∨ packet.length ≠ 17) :
    parseFrameStart packet = none := by
  unfold parseFrameStart
  split
  · refine if_neg fun hk => ?_
    subst hk
    simp at h
  · rfl

/-- A packet of another kind byte, or too short, is no Line. -/
theorem parseLine_eq_none {packet : List Byte} (h : packet.head? ≠ some 2 ∨ packet.length < 5) :
    parseLine packet = none := by
  unfold parseLine
  split
  · refine if_neg fun ⟨hk, hl⟩ => ?_
    subst hk
    simp at h
    omega
  · rfl

/-- A packet of another kind byte or length is no Frame End. -/
theorem parseFrameEnd_eq_none {packet : List Byte} (h : packet.head? ≠ some 3 ∨ packet.length ≠ 3) :
    parseFrameEnd packet = none := by
  unfold parseFrameEnd
  split
  · refine if_neg fun hk => ?_
    subst hk
    simp at h
  · rfl

section
variable {s : State} {c : Fin 4} {packet : List Byte}

/-- What is no Frame Start, or comes to a port in OFF, changes nothing. -/
theorem exec_frameStart_ignored (h : parseFrameStart packet = none ∨ (pick s.ports c).state = .off) :
    exec (.frameStart c packet) s = .next s := by
  simp only [exec, execFrameStart]
  rcases h with h | h
  · rw [h]
  · cases parseFrameStart packet with
    | none => rfl
    | some f => simp only [h]

/-- What is no Line, or comes to a port outside RECEIVE, changes nothing. -/
theorem exec_line_ignored (h : parseLine packet = none ∨ ∀ r, (pick s.ports c).state ≠ .receive r) :
    exec (.line c packet) s = .next s := by
  simp only [exec, execLine]
  rcases h with h | h
  · rw [h]
  · cases parseLine packet with
    | none => rfl
    | some l =>
      cases hs : (pick s.ports c).state with
      | receive r => exact absurd hs (h r)
      | off => rfl
      | wait => rfl
      | discard => rfl

/-- What is no Frame End, or comes to a port outside RECEIVE, changes nothing. -/
theorem exec_frameEnd_ignored (h : parseFrameEnd packet = none ∨ ∀ r, (pick s.ports c).state ≠ .receive r) :
    exec (.frameEnd c packet) s = .next s := by
  simp only [exec, execFrameEnd]
  rcases h with h | h
  · rw [h]
  · cases parseFrameEnd packet with
    | none => rfl
    | some sent =>
      cases hs : (pick s.ports c).state with
      | receive r => exact absurd hs (h r)
      | off => rfl
      | wait => rfl
      | discard => rfl

end

/-- Settles O8, from the layouts' round trips and the packets ignored. -/
theorem cameraPackets : Obligations.CameraPackets := by
  refine ⟨fun sequence exposure width height level kind marker ox oy odometer hw hh => ?_,
    fun n field hn => parseLine_layout field hn, unpackPixels_pair, fun n hn => parseFrameEnd_leBytes hn,
    fun s c packet => ⟨rfl, fun h => exec_frameStart_ignored (.inr h), fun h => ?_,
      fun h => exec_frameStart_ignored (.inl (parseFrameStart_eq_none h)),
      fun h => exec_line_ignored (.inl (parseLine_eq_none h)),
      fun h => exec_frameEnd_ignored (.inl (parseFrameEnd_eq_none h))⟩⟩
  · rw [parseFrameStart_layout sequence exposure level kind marker ox oy odometer hw hh]
    fin_cases kind <;> rfl
  · have hne : ∀ r, (pick s.ports c).state ≠ .receive r := by
      rcases h with h | h | h <;> rw [h] <;> exact fun r hr => nomatch hr
    exact ⟨exec_line_ignored (.inr hne), exec_frameEnd_ignored (.inr hne)⟩

end Sys2Proof.Machine
end

section
/-! PROOFS. Line repair and frame damage (spec/01, R9 and R10). -/

namespace Sys2Proof.Machine

/-! ### Updates of a port -/

/-- An update is what it does to the element. -/
theorem upd_congr {α : Type} {n : Nat} {v : Vector α n} {i : Fin n} {f g : α → α} (h : f (pick v i) = g (pick v i)) :
    upd v i f = upd v i g := by
  rw [upd, h, upd]

/-- A port update is what it does to the port. -/
theorem updPort_congr {s : State} {c : Fin 4} {f g : Port → Port} (h : f (pick s.ports c) = g (pick s.ports c)) :
    s.updPort c f = s.updPort c g := by
  rw [State.updPort, upd_congr h, State.updPort]

/-- Two updates of one port are one. -/
@[simp] theorem updPort_updPort (s : State) (c : Fin 4) (f g : Port → Port) :
    (s.updPort c f).updPort c g = s.updPort c fun p => g (f p) := by
  simp [State.updPort]

/-- A port update that changes nothing. -/
theorem updPort_self {s : State} {c : Fin 4} {f : Port → Port} (h : f (pick s.ports c) = pick s.ports c) :
    s.updPort c f = s := by
  obtain ⟨pending⟩ := s
  rw [State.updPort, upd_self _ _ _ h]

/-! ### A run of repairs (R9, R10) -/

/-- The lines of a slot once `row` stands at each of the `n` lines from `e` on. -/
def putLines (row : List Pixel) (e : Nat) : Nat → List (Nat × List Pixel) → List (Nat × List Pixel)
  | 0, m => m
  | n + 1, m => putAt (e + n) row (putLines row e n m)

/-- A line of the run holds the row, every other line what it held. -/
theorem findAt_putLines (row : List Pixel) (e n x : Nat) (m : List (Nat × List Pixel)) :
    findAt x (putLines row e n m) = if e ≤ x ∧ x < e + n then some row else findAt x m := by
  induction n with
  | zero => rw [if_neg (by omega), putLines]
  | succ n ih =>
    by_cases hx : x = e + n
    · subst hx
      rw [if_pos (by omega), putLines, findAt_putAt_same]
    · rw [putLines, findAt_putAt_other _ _ hx, ih]
      exact if_congr (by omega) rfl rfl

/-- A listed line of the slot's full width reads as the codes it holds. -/
theorem readRow_of_findAt {s : State} {i : Fin 12} {line w : Nat} {row : List Pixel}
    (h : findAt line (pick s.sourceSlots i).rows = some row) (hw : row.length = w) :
    readRow s i line w = row := by
  subst hw
  refine List.ext_getElem (by simp [readRow]) fun x _ hx => ?_
  simp [readRow, readPixel, h, List.getElem?_eq_getElem hx]

/-- A repair writes one code for each column of the port. -/
theorem repairRow_length (c : Fin 4) (r : Reception) (s : State) :
    (repairRow c r s).length = (pick s.ports c).width := by
  unfold repairRow readRow
  split <;> simp

/-- A repair reads the port's width and black level and the slot's line above, and nothing else. -/
theorem repairRow_congr {c : Fin 4} {r : Reception} {s t : State}
    (hw : (pick t.ports c).width = (pick s.ports c).width) (hb : (pick t.ports c).black = (pick s.ports c).black)
    (hs : t.sourceSlots = s.sourceSlots) (he : t.epoch = s.epoch) : repairRow c r t = repairRow c r s := by
  unfold repairRow readRow readPixel
  simp only [hw, hb, hs, he]

/-- A slot after `n` repairs from line `e` on. -/
def SourceSlot.repaired (x : SourceSlot) (row : List Pixel) (e n : Nat) : SourceSlot :=
  { x with rows := putLines row e n x.rows }

/-- The port of `r` after `n` repairs the frame survives. -/
def Port.repaired (p : Port) (r : Reception) (n : Nat) : Port :=
  { p with
    state := .receive { r with expected := r.expected + n, repairs := r.repairs + n }
    counters := { p.counters with linesRepaired := Nat.repeat satInc n p.counters.linesRepaired } }

/-- The port after `n` repairs of which the last damages the frame. -/
def Port.damaged (p : Port) (n : Nat) : Port :=
  { p with
    state := .discard
    counters := { p.counters with
      linesRepaired := Nat.repeat satInc n p.counters.linesRepaired
      damagedFrames := satInc p.counters.damagedFrames } }

/-- The state after `n` repairs that the frame in `r` survives. -/
def State.repaired (s : State) (c : Fin 4) (r : Reception) (n : Nat) : State :=
  { s with
    sourceSlots := upd s.sourceSlots r.slot fun x => x.repaired (repairRow c r s) r.expected n
    ports := upd s.ports c fun p => p.repaired r n }

/-- The state after `n` repairs of which the last damages the frame in `r`. -/
def State.damaged (s : State) (c : Fin 4) (r : Reception) (n : Nat) : State :=
  State.raise
    { s with
      sourceSlots := upd s.sourceSlots r.slot fun x =>
        { x.repaired (repairRow c r s) r.expected n with receiving := false }
      ports := upd s.ports c fun p => p.damaged n
      sticky := withBit s.sticky StickyFlag.cameraDamaged.bit }
    (.cameraDamaged c r.header.copy.sequence (r.repairs + n))

section
variable {s : State} {c : Fin 4} {r : Reception}

/-- One repair within the limit. -/
theorem repairLine_within (hr : (pick s.ports c).state = .receive r)
    (hl : r.repairs + 1 ≤ (pick s.ports c).repairLimit) : repairLine c s = s.repaired c r 1 := by
  have hn : ¬ (pick s.ports c).repairLimit < r.repairs + 1 := by omega
  simp [repairLine, hr, hn, State.writeRow, State.updSource, State.countCamera, State.updPort, State.repaired,
    SourceSlot.repaired, Port.repaired, putLines, Nat.repeat]

/-- One repair past the limit. -/
theorem repairLine_past (hr : (pick s.ports c).state = .receive r)
    (hl : (pick s.ports c).repairLimit < r.repairs + 1) : repairLine c s = s.damaged c r 1 := by
  simp [repairLine, hr, hl, damageFrame, State.stopReceiving, State.writeRow, State.updSource, State.countCamera,
    State.updPort, State.damaged, SourceSlot.repaired, Port.damaged, putLines, Nat.repeat, State.setSticky]

/-- Outside RECEIVE nothing is left to repair. -/
theorem repairLines_discard (n : Nat) (h : (pick s.ports c).state = .discard) : repairLines c n s = s := by
  induction n with
  | zero => rfl
  | succ n ih => simpa [repairLines, repairLine, h] using ih

/-- A run of repairs in two parts. -/
theorem repairLines_add (c : Fin 4) (m n : Nat) (s : State) :
    repairLines c (m + n) s = repairLines c n (repairLines c m s) := by
  induction m generalizing s with
  | zero => simp [repairLines]
  | succ m ih => rw [show m + 1 + n = m + n + 1 by omega, repairLines, ih, repairLines]

/-- The last repair of a run. -/
theorem repairLines_succ (c : Fin 4) (n : Nat) (s : State) :
    repairLines c (n + 1) s = repairLine c (repairLines c n s) := repairLines_add c n 1 s

/-- The port after repairs within the limit. -/
@[simp] theorem State.repaired_port (n : Nat) : pick (s.repaired c r n).ports c = (pick s.ports c).repaired r n :=
  pick_upd_same _ _ _

/-- After repairs the frame survives, the port is in RECEIVE with the expected line past the run. -/
theorem State.repaired_state (n : Nat) : (pick (s.repaired c r n).ports c).state
    = .receive { r with expected := r.expected + n, repairs := r.repairs + n } := by
  rw [State.repaired_port]
  rfl

/-- No repair leaves the slots as they are. -/
theorem State.repaired_zero_sourceSlots : (s.repaired c r 0).sourceSlots = s.sourceSlots :=
  upd_self s.sourceSlots r.slot (fun x => x.repaired (repairRow c r s) r.expected 0) rfl

/-- No repair leaves the state as it is. -/
theorem State.repaired_zero (hr : (pick s.ports c).state = .receive r) : s.repaired c r 0 = s := by
  have hp : (s.repaired c r 0).ports = s.ports :=
    upd_self s.ports c (fun p => p.repaired r 0) (by simp [Port.repaired, ← hr, Nat.repeat])
  calc s.repaired c r 0
      = { s with sourceSlots := (s.repaired c r 0).sourceSlots, ports := (s.repaired c r 0).ports } := rfl
    _ = s := by rw [State.repaired_zero_sourceSlots, hp]

/-- The repair after a run of repairs writes the same codes: the line above it is the run's last, or the run
is empty. -/
theorem repairRow_repaired (n : Nat) :
    repairRow c { r with expected := r.expected + n, repairs := r.repairs + n } (s.repaired c r n)
      = repairRow c r s := by
  cases n with
  | zero =>
    exact repairRow_congr (by simp [Port.repaired]) (by simp [Port.repaired]) State.repaired_zero_sourceSlots rfl
  | succ n =>
    have hrow : findAt (r.expected + n) (pick (s.repaired c r (n + 1)).sourceSlots r.slot).rows
        = some (repairRow c r s) := by
      simp [State.repaired, SourceSlot.repaired, putLines]
    have hlen : (repairRow c r s).length = (pick (s.repaired c r (n + 1)).ports c).width := by
      rw [repairRow_length, State.repaired_port]
      rfl
    rw [repairRow]
    exact readRow_of_findAt hrow hlen

/-- One more repair that the frame survives. -/
theorem repaired_succ (n : Nat) :
    (s.repaired c r n).repaired c { r with expected := r.expected + n, repairs := r.repairs + n } 1
      = s.repaired c r (n + 1) := by
  rw [State.repaired, repairRow_repaired]
  simp [State.repaired, SourceSlot.repaired, Port.repaired, putLines, Nat.repeat, Nat.add_assoc]

/-- One more repair, which damages the frame. -/
theorem damaged_succ (n : Nat) :
    (s.repaired c r n).damaged c { r with expected := r.expected + n, repairs := r.repairs + n } 1
      = s.damaged c r (n + 1) := by
  rw [State.damaged, repairRow_repaired]
  simp [State.repaired, State.damaged, SourceSlot.repaired, Port.repaired, Port.damaged, putLines, Nat.repeat,
    Nat.add_assoc]

/-- A run of repairs within the limit (R9). -/
theorem repairLines_within {n : Nat} (hr : (pick s.ports c).state = .receive r)
    (hl : r.repairs + n ≤ (pick s.ports c).repairLimit) : repairLines c n s = s.repaired c r n := by
  induction n with
  | zero =>
    rw [State.repaired_zero hr, repairLines]
  | succ n ih =>
    rw [repairLines_succ, ih (by omega), repairLine_within (s.repaired_state n), repaired_succ]
    rw [State.repaired_port]
    exact hl

/-- A frame's damage raises one notice, so outside the notices and their loss only the slot, the port and
CAMERA_DAMAGED change. -/
theorem State.damaged_eq (n : Nat) : ∃ q k i, s.damaged c r n = { s with
    sourceSlots := upd s.sourceSlots r.slot fun x =>
      { x.repaired (repairRow c r s) r.expected n with receiving := false }
    ports := upd s.ports c fun p => p.damaged n
    notices := q, sticky := k, interfaceCounters := i } := by
  obtain ⟨q, k, i, h⟩ := raise_only _ (.cameraDamaged c r.header.copy.sequence (r.repairs + n))
  exact ⟨q, k, i, h⟩

/-- The slots of a damaged frame. -/
theorem State.damaged_sourceSlots (n : Nat) : (s.damaged c r n).sourceSlots =
    upd s.sourceSlots r.slot fun x =>
      { x.repaired (repairRow c r s) r.expected n with receiving := false } := by
  obtain ⟨q, k, i, h⟩ := s.damaged_eq (c := c) (r := r) n
  rw [h]

/-- The port of a damaged frame goes to DISCARD. -/
@[simp] theorem State.damaged_port (n : Nat) : pick (s.damaged c r n).ports c = (pick s.ports c).damaged n := by
  obtain ⟨q, k, i, h⟩ := s.damaged_eq (c := c) (r := r) n
  rw [h, pick_upd_same]

/-- A run of repairs that passes the limit stops at the repair that passes it (R10). -/
theorem repairLines_past {n : Nat} (hr : (pick s.ports c).state = .receive r)
    (h0 : r.repairs ≤ (pick s.ports c).repairLimit) (hl : (pick s.ports c).repairLimit < r.repairs + n) :
    repairLines c n s = s.damaged c r ((pick s.ports c).repairLimit + 1 - r.repairs) := by
  obtain ⟨m, hm⟩ : ∃ m, (pick s.ports c).repairLimit = r.repairs + m := ⟨_, (Nat.add_sub_cancel' h0).symm⟩
  obtain ⟨k, rfl⟩ : ∃ k, n = m + 1 + k := ⟨n - (m + 1), by omega⟩
  have hlast : repairLines c (m + 1) s = s.damaged c r (m + 1) := by
    rw [repairLines_succ, repairLines_within hr (by omega), repairLine_past (s.repaired_state m), damaged_succ]
    rw [State.repaired_port]
    exact hm.trans_lt (Nat.lt_succ_self _)
  rw [repairLines_add, hlast, repairLines_discard k (by rw [State.damaged_port]; rfl), hm]
  congr 1
  omega

end

/-- The slots once `n` lines of slot `i` from `e` on hold `row`, its references and the other slots kept. -/
theorem upd_repaired_slots {v w : Vector SourceSlot 12} {i : Fin 12} {row : List Pixel} {e n : Nat}
    {f : SourceSlot → SourceSlot} (hf : ∀ x, (f x).rows = putLines row e n x.rows ∧ (f x).refs = x.refs)
    (hw : w = upd v i f) :
    (∀ x, findAt x (pick w i).rows = if e ≤ x ∧ x < e + n then some row else findAt x (pick v i).rows)
    ∧ (pick w i).refs = (pick v i).refs ∧ ∀ j, j ≠ i → pick w j = pick v j := by
  subst hw
  simp only [pick_upd_same, (hf _).1, (hf _).2, findAt_putLines, implies_true, true_and]
  exact fun j hj => pick_upd_other v f hj

/-- Settles O10: a run of repairs within the limit leaves `State.repaired`, one past it `State.damaged`. -/
theorem repairRun : Obligations.RepairRun := by
  intro s c r n hr h0 p fill made t
  change r.repairs ≤ p.repairLimit at h0
  rcases Nat.lt_or_ge p.repairLimit (r.repairs + n) with hl | hl
  · have hmade : made = p.repairLimit + 1 - r.repairs := by omega
    have hcount : r.repairs + made = p.repairLimit + 1 := by omega
    have ht : t = s.damaged c r made := hmade ▸ repairLines_past hr h0 hl
    obtain ⟨hrows, hrefs, hother⟩ := upd_repaired_slots (w := t.sourceSlots) (f := fun x =>
      { x.repaired (repairRow c r s) r.expected made with receiving := false })
      (fun _ => ⟨rfl, rfl⟩) (by rw [ht, State.damaged_sourceSlots])
    refine ⟨hrows, hrefs, hother, fun h => absurd hl (by omega), fun _ => ⟨?_, ?_⟩⟩
    · rw [ht, State.damaged_sourceSlots, pick_upd_same]
    · rw [ht, State.damaged_sourceSlots, State.damaged, hcount]
      rfl
  · have hmade : made = n := by omega
    have ht : t = s.repaired c r n := repairLines_within hr hl
    obtain ⟨hrows, hrefs, hother⟩ := upd_repaired_slots (w := t.sourceSlots) (f := fun x =>
      x.repaired (repairRow c r s) r.expected made) (fun _ => ⟨rfl, rfl⟩) (by rw [ht, hmade]; rfl)
    refine ⟨hrows, hrefs, hother, fun _ => ⟨?_, ?_⟩, fun h => absurd hl (by omega)⟩
    · rw [ht, State.repaired, pick_upd_same]
      rfl
    · rw [ht]
      rfl

end Sys2Proof.Machine
end

section
/-! PROOFS. Lines, the Frame End and posting (spec/01, R8, R11 to R13, R16; spec/05, R81). -/

namespace Sys2Proof.Machine

/-! ### A Line (R8) -/

section
variable {s : State} {c : Fin 4} {r : Reception}

/-- A run that passes the limit leaves the port in DISCARD, wherever the repair count stood before it. -/
theorem repairLines_past_state {n : Nat} (hr : (pick s.ports c).state = .receive r) (hn : 0 < n)
    (hl : (pick s.ports c).repairLimit < r.repairs + n) : (pick (repairLines c n s).ports c).state = .discard := by
  rcases Nat.lt_or_ge (pick s.ports c).repairLimit r.repairs with h0 | h0
  · obtain ⟨m, rfl⟩ : ∃ m, n = m + 1 := ⟨n - 1, by omega⟩
    have hd : (pick (s.damaged c r 1).ports c).state = .discard := by rw [State.damaged_port]; rfl
    rw [repairLines, repairLine_past hr (by omega), repairLines_discard m hd, hd]
  · rw [repairLines_past hr h0 hl, State.damaged_port]
    rfl

/-- A Line packet in RECEIVE is taken against the expected line. -/
theorem exec_line_receive {packet : List Byte} {l : LineFields} (hl : parseLine packet = some l)
    (hr : (pick s.ports c).state = .receive r) : exec (.line c packet) s = .next (takeLine c r l s) := by
  simp [exec, execLine, hl, hr]

/-- A good line is written at its place and becomes the line above the expected one. -/
theorem writeLine_receive (l : LineFields) (hr : (pick s.ports c).state = .receive r) :
    writeLine c l s = { s with
      sourceSlots := upd s.sourceSlots r.slot fun x => { x with rows := putAt l.number (unpackPixels l.pixels) x.rows }
      ports := upd s.ports c fun p => { p with state := .receive { r with expected := l.number + 1 } } } := by
  simp [writeLine, hr, State.writeRow, State.updSource, State.updPort]

/-- No line is written in DISCARD. -/
theorem writeLine_discard (l : LineFields) (hd : (pick s.ports c).state = .discard) : writeLine c l s = s := by
  simp [writeLine, hd]

/-- A line is good in the terms of R7. -/
theorem good_iff (l : LineFields) (w : Nat) : l.good w = true ↔ l.crcMatches = true ∧ 2 * l.pixels.length = 3 * w := by
  simp [LineFields.good]

/-- A line at or past the height is ignored. -/
theorem takeLine_beyond {l : LineFields} (hh : (pick s.ports c).height ≤ l.number) : takeLine c r l s = s := by
  simp [takeLine, hh]

/-- A line below the expected line is a duplicate. -/
theorem takeLine_duplicate {l : LineFields} (hh : l.number < (pick s.ports c).height) (he : l.number < r.expected) :
    takeLine c r l s = s.countCamera c fun k => { k with duplicateLines := satInc k.duplicateLines } := by
  simp [takeLine, Nat.not_le.2 hh, he]

/-- A good line at or past the expected line: the lines before it are repaired and it is written. -/
theorem takeLine_good {l : LineFields} (hh : l.number < (pick s.ports c).height) (he : r.expected ≤ l.number)
    (hg : l.good (pick s.ports c).width = true) :
    takeLine c r l s = writeLine c l (repairLines c (l.number - r.expected) s) := by
  simp [takeLine, Nat.not_le.2 hh, Nat.not_lt.2 he, hg]

/-- A bad line at or past the expected line: it is repaired with the lines before it, and counted. -/
theorem takeLine_bad {l : LineFields} (hh : l.number < (pick s.ports c).height) (he : r.expected ≤ l.number)
    (hg : ¬ l.good (pick s.ports c).width = true) :
    takeLine c r l s = (repairLines c (l.number + 1 - r.expected) s).countCamera c fun k =>
      { k with badLines := satInc k.badLines } := by
  simp [takeLine, Nat.not_le.2 hh, Nat.not_lt.2 he, hg, Nat.sub_add_comm he]

end

/-- Settles O11, by R8's table. -/
theorem lineTaken : Obligations.LineTaken := by
  intro s c packet l r hl hr p good
  have hgood : good ↔ l.good p.width = true := (good_iff l p.width).symm
  rw [hgood]
  simp only [exec_line_receive hl hr, Host.Outcome.next.injEq]
  refine ⟨takeLine_beyond, takeLine_duplicate, fun hh he hg => ?_, fun hh he hg => ⟨_, rfl, ?_⟩,
    fun hh he hg => ⟨_, rfl, takeLine_bad hh he hg⟩⟩
  · rw [takeLine_good hh he.ge hg, he, Nat.sub_self, repairLines, writeLine_receive l hr, he]
  · rw [takeLine_good hh he.le hg]
    split
    · next hlim =>
      have ht := repairLines_within hr hlim
      rw [writeLine_receive l (ht ▸ s.repaired_state _)]
    · next hlim =>
      exact writeLine_discard l (repairLines_past_state hr (Nat.sub_pos_of_lt he) (not_le.1 hlim))

/-! ### Posting (R12, R13, R16, R67, R81) -/

/-- A view after an offer in which the views `made` got a job and the views `skipped` found the queue full. -/
def View.offered (w : View) (isMade isSkipped : Bool) : View :=
  { w with counters :=
    if isMade then { w.counters with admitted := satInc w.counters.admitted }
    else if isSkipped then { w.counters with queueFullSkips := satInc w.counters.queueFullSkips }
    else w.counters }

/-- The state once the frame in source slot `i` has been offered, the views `made` having got the jobs `job` and the
views `skipped` none. -/
def State.offered (s : State) (job : Fin 16 → Job) (i : Fin 12) (made skipped : List (Fin 16)) : State :=
  { s with
    jobs := s.jobs ++ made.map job
    sourceSlots := upd s.sourceSlots i fun x => { x with refs := x.refs + made.length }
    views := tabulate fun v => (pick s.views v).offered (decide (v ∈ made)) (decide (v ∈ skipped)) }

/-- A view served or skipped takes the same frames. -/
@[simp] theorem View.offered_admits (w : View) (a b : Bool) (c : Fin 4) (h : HeaderCopy) :
    (w.offered a b).admits c h = w.admits c h := rfl

/-- A view neither served nor skipped stands. -/
@[simp] theorem View.offered_false (w : View) : w.offered false false = w := rfl

section
variable {job : Fin 16 → Job} {i : Fin 12}

/-- An offer to no view. -/
theorem State.offered_nil (s : State) : s.offered job i [] [] = s := by
  obtain ⟨pending⟩ := s
  simp only [State.offered, List.map_nil, List.append_nil, List.length_nil]
  congr 1
  · exact upd_self _ _ _ rfl
  · exact pick_ext fun v => by simp

/-- The visit of an admitting view while the queue has room. -/
theorem visitView_room {s : State} {v : Fin 16} (hi : (job v).slot = i)
    (ha : (pick s.views v).admits (job v).camera (job v).header = true) (hl : s.jobs.length < 32) :
    visitView job s v = s.offered job i [v] [] := by
  simp only [visitView, ha, if_true, Config.jobPlaces, hl, hi, State.updSource, State.countView, State.updView,
    State.offered]
  congr 1
  exact pick_ext fun u => by by_cases h : u = v <;> simp [View.offered, pick_upd, h]

/-- The visit of an admitting view with the queue full. -/
theorem visitView_full {s : State} {v : Fin 16}
    (ha : (pick s.views v).admits (job v).camera (job v).header = true) (hl : ¬ s.jobs.length < 32) :
    visitView job s v = s.offered job i [] [v] := by
  obtain ⟨pending⟩ := s
  simp only [visitView, ha, if_true, Config.jobPlaces, hl, if_false, State.countView, State.updView, State.offered,
    List.map_nil, List.append_nil, List.length_nil]
  congr 1
  · exact (upd_self _ _ _ rfl).symm
  · exact pick_ext fun u => by by_cases h : u = v <;> simp [View.offered, pick_upd, h]

/-- The visit of a view that turns the frame away. -/
theorem visitView_passed {s : State} {v : Fin 16}
    (ha : ¬ (pick s.views v).admits (job v).camera (job v).header = true) : visitView job s v = s := by
  simp [visitView, ha]

/-- One more view at the front of those that got a job. -/
theorem offered_made_cons {s : State} {v : Fin 16} {made skipped : List (Fin 16)} (hm : v ∉ made) (hk : v ∉ skipped) :
    (s.offered job i [v] []).offered job i made skipped = s.offered job i (v :: made) skipped := by
  simp only [State.offered, upd_upd, List.append_assoc, List.length_cons, List.length_nil]
  congr 1
  · congr 1
    funext x
    congr 1
    omega
  · exact pick_ext fun u => by by_cases h : u = v <;> simp [View.offered, h, hm, hk]

/-- One more view at the front of those that found the queue full. -/
theorem offered_skipped_cons {s : State} {v : Fin 16} {skipped : List (Fin 16)} (hk : v ∉ skipped) :
    (s.offered job i [] [v]).offered job i [] skipped = s.offered job i [] (v :: skipped) := by
  simp only [State.offered, upd_upd, List.map_nil, List.append_nil, List.length_nil, Nat.add_zero]
  congr 1
  exact pick_ext fun u => by by_cases h : u = v <;> simp [View.offered, h, hk]

/-- An offer changes no view's admission. -/
@[simp] theorem State.offered_admits (s : State) (made skipped : List (Fin 16)) (v : Fin 16) (c : Fin 4)
    (h : HeaderCopy) :
    (pick (s.offered job i made skipped).views v).admits c h = (pick s.views v).admits c h := by
  simp [State.offered]

/-- The queue's visit of views in order: of the admitting ones, the first get a job while there is room, and
the others find the queue full (R81). -/
theorem foldl_visitView (hi : ∀ v, (job v).slot = i) {vs : List (Fin 16)} (hn : vs.Nodup) {adm : Fin 16 → Bool}
    {s : State} (ha : ∀ v, (pick s.views v).admits (job v).camera (job v).header = adm v) :
    vs.foldl (visitView job) s = s.offered job i ((vs.filter adm).take (32 - s.jobs.length))
      ((vs.filter adm).drop (32 - s.jobs.length)) := by
  induction vs generalizing s with
  | nil => simp [State.offered_nil]
  | cons v vs ih =>
    obtain ⟨hv, hn⟩ := List.nodup_cons.1 hn
    have hmem : v ∉ vs.filter adm := fun h => hv (List.mem_of_mem_filter h)
    rw [List.foldl_cons]
    by_cases hadm : adm v = true
    · rw [List.filter_cons_of_pos hadm]
      by_cases hl : s.jobs.length < 32
      · have hroom : 32 - s.jobs.length = 32 - (s.offered job i [v] []).jobs.length + 1 := by
          simp only [State.offered, List.length_append, List.length_map, List.length_singleton]
          omega
        rw [visitView_room (hi v) ((ha v).trans hadm) hl, ih hn (by simpa using ha), hroom, List.take_succ_cons,
          List.drop_succ_cons, offered_made_cons (fun h => hmem (List.mem_of_mem_take h))
            fun h => hmem (List.mem_of_mem_drop h)]
      · have hfull : 32 - s.jobs.length = 0 := by omega
        have hjobs : (s.offered job i [] [v]).jobs = s.jobs := by simp [State.offered]
        rw [visitView_full (i := i) ((ha v).trans hadm) hl, ih hn (by simpa using ha), hjobs, hfull,
          List.take_zero, List.take_zero, List.drop_zero, List.drop_zero, offered_skipped_cons hmem]
    · rw [List.filter_cons_of_neg hadm, visitView_passed (by rwa [ha v]), ih hn ha]

end

/-- The admitting views of a frame of camera `c` with header `h`, in ascending number (R67, R81). -/
def State.admitting (s : State) (c : Fin 4) (h : HeaderCopy) : List (Fin 16) :=
  (List.finRange 16).filter fun v => (pick s.views v).admits c h

/-- The admitting views that find room in the Conditioning Queue (R80, R81). -/
def State.served (s : State) (c : Fin 4) (h : HeaderCopy) : List (Fin 16) :=
  (s.admitting c h).take (32 - s.jobs.length)

/-- The admitting views that find it full (R81). -/
def State.unserved (s : State) (c : Fin 4) (h : HeaderCopy) : List (Fin 16) :=
  (s.admitting c h).drop (32 - s.jobs.length)

/-- The job of the frame in `r` for view `v` (05 5.1). -/
def Reception.job (r : Reception) (c : Fin 4) (v : Fin 16) : Job := ⟨r.slot, c, v, r.header.copy, r.repairs⟩

/-- The frame in `r` offered to the queue: each view served gets its job (R12 step 4, R81). -/
theorem offerFrame_eq (c : Fin 4) (r : Reception) (s : State) :
    offerFrame c r s = s.offered (r.job c) r.slot
      (s.served c r.header.copy) (s.unserved c r.header.copy) := by
  change (List.finRange 16).foldl (visitView (r.job c)) s = _
  rw [foldl_visitView (i := r.slot) (adm := fun v => (pick s.views v).admits c r.header.copy)
    (fun _ => rfl) (List.nodup_finRange 16) fun _ => rfl, State.served, State.unserved, State.admitting]

/-- A port after the sequence check of a frame numbered `q` (R13). -/
def Port.sequenced (p : Port) (q : Half) : Port :=
  { p with
    lastSequence := some q
    counters := { p.counters with
      sequenceGaps := if ∃ x ∈ p.lastSequence, q ≠ x + 1 then satInc p.counters.sequenceGaps
        else p.counters.sequenceGaps } }

/-- The sequence check changes its port alone (R13). -/
theorem sequenceCheck_eq (c : Fin 4) (q : Half) (s : State) :
    sequenceCheck c q s = s.updPort c fun p => p.sequenced q := by
  unfold sequenceCheck
  split
  · next hp => exact updPort_congr (by simp [Port.sequenced, hp])
  · next x hp =>
    split
    · next hq => exact updPort_congr (by simp [Port.sequenced, hp, hq])
    · next hq =>
      rw [State.countCamera_eq, updPort_updPort]
      exact updPort_congr (by
        simp only [Port.sequenced, hp, Option.mem_def, Option.some.injEq, exists_eq_left', ne_eq, hq,
          not_false_eq_true, if_true])

/-- The sum over the dark window reads the slots and the epoch. -/
theorem darkSum_congr {s t : State} (hs : t.sourceSlots = s.sourceSlots) (he : t.epoch = s.epoch) (i : Fin 12)
    (d : DarkWindow) : darkSum t i d = darkSum s i d := by
  simp only [darkSum, readPixel, hs, he]

/-- The mean of the port's dark window over the slot of `r` (R16). -/
def State.darkMean (s : State) (c : Fin 4) (r : Reception) : Nat :=
  let d := (pick s.ports c).window
  mean16 (darkSum s r.slot d) (d.w * d.h)

/-- A port after the dark-tracking update from the mean `m` (R16). -/
def Port.tracked (p : Port) (kind : FrameKind) (m : Nat) : Port :=
  { p with black := if kind = .dark ∧ p.darkTracking = true then trackedBlack p.black m else p.black }

/-- The dark-tracking update changes its port alone (R16). -/
theorem trackBlack_eq (c : Fin 4) (r : Reception) (s : State) :
    trackBlack c r s = s.updPort c fun p => p.tracked r.header.copy.kind (s.darkMean c r) := by
  simp only [trackBlack]
  split
  · next h => exact updPort_congr (by simp only [Port.tracked, if_pos h]; rfl)
  · next h => exact (updPort_self (by simp only [Port.tracked, if_neg h])).symm

/-- The mean of the dark window after a change of the port's other fields. -/
theorem State.darkMean_updPort (s : State) (c : Fin 4) (r : Reception) {f : Port → Port}
    (h : (f (pick s.ports c)).window = (pick s.ports c).window) :
    (s.updPort c f).darkMean c r = s.darkMean c r := by
  simp only [State.darkMean, State.updPort_ports, pick_upd_same, h]
  rw [darkSum_congr (s.updPort_sourceSlots c f) (s.updPort_epoch c f)]

/-- A port after the posting of the frame in `r`, whose dark window has the mean `m` (R12, R13, R16). -/
def Port.posted (p : Port) (r : Reception) (m : Nat) : Port :=
  let q : Port := { p with
    state := .wait
    counters := { p.counters with framesPosted := satInc p.counters.framesPosted } }
  (q.sequenced r.header.copy.sequence).tracked r.header.copy.kind m

/-- The posting of a frame: its port, the offer to the queue, and its slot no longer receiving (R12). -/
theorem postFrame_eq (c : Fin 4) (r : Reception) (s : State) :
    postFrame c r s = (State.offered (s.updPort c fun p => p.posted r (s.darkMean c r))
      (r.job c) r.slot (s.served c r.header.copy)
      (s.unserved c r.header.copy)).stopReceiving r.slot := by
  rw [postFrame, sequenceCheck_eq, trackBlack_eq, offerFrame_eq, State.countCamera_eq]
  simp only [updPort_updPort]
  rw [State.darkMean_updPort _ _ _ rfl]
  rfl

/-! ### Frame End (R11) -/

/-- The end-mismatch count of a Frame End that carries `sent` (R11). -/
def State.checkSent (s : State) (c : Fin 4) (sent : Nat) : State :=
  if sent = (pick s.ports c).height then s
  else s.countCamera c fun k => { k with endMismatches := satInc k.endMismatches }

/-- A port after the end-mismatch check. -/
def Port.checked (p : Port) (sent : Nat) : Port :=
  { p with counters := { p.counters with
    endMismatches := if sent = p.height then p.counters.endMismatches else satInc p.counters.endMismatches } }

/-- The end-mismatch check changes its port alone. -/
theorem State.checkSent_eq (s : State) (c : Fin 4) (sent : Nat) :
    s.checkSent c sent = s.updPort c fun p => p.checked sent := by
  unfold State.checkSent
  split
  · next h => exact (updPort_self (by simp [Port.checked, h])).symm
  · next h => exact updPort_congr (by simp [Port.checked, h])

/-- The port after the end-mismatch check. -/
@[simp] theorem State.checkSent_port (s : State) (c : Fin 4) (sent : Nat) :
    pick (s.checkSent c sent).ports c = (pick s.ports c).checked sent := by
  rw [State.checkSent_eq, State.updPort_ports, pick_upd_same]

section
variable {s : State} {c : Fin 4} {r : Reception}

/-- The check comes before the repairs or after them. -/
theorem repaired_checkSent (n sent : Nat) :
    (s.checkSent c sent).repaired c r n = (s.repaired c r n).checkSent c sent := by
  have hrow : repairRow c r (s.checkSent c sent) = repairRow c r s := by
    refine repairRow_congr ?_ ?_ ?_ ?_ <;> simp [State.checkSent_eq, Port.checked]
  rw [State.repaired, hrow, State.checkSent_eq, State.checkSent_eq]
  simp only [State.updPort, State.repaired, upd_upd]
  rfl

/-- A frame that survives the repair of its tail is posted (R11). -/
theorem closeFrame_receive {sent : Nat} {r' : Reception}
    (h : (pick (repairLines c ((pick s.ports c).height - r.expected) (s.checkSent c sent)).ports c).state
      = .receive r') :
    closeFrame c r sent s
      = postFrame c r' (repairLines c ((pick s.ports c).height - r.expected) (s.checkSent c sent)) := by
  unfold State.checkSent at h ⊢
  simp only [closeFrame, h]

/-- A frame that the repair of its tail has damaged is not posted (R11). -/
theorem closeFrame_discard {sent : Nat}
    (h : (pick (repairLines c ((pick s.ports c).height - r.expected) (s.checkSent c sent)).ports c).state
      = .discard) :
    closeFrame c r sent s = repairLines c ((pick s.ports c).height - r.expected) (s.checkSent c sent) := by
  unfold State.checkSent at h ⊢
  simp only [closeFrame, h]

/-- A frame whose tail is repaired within the limit is posted with the repairs counted. -/
theorem closeFrame_within {n : Nat} (sent : Nat) (hr : (pick s.ports c).state = .receive r)
    (hn : (pick s.ports c).height - r.expected = n) (hl : r.repairs + n ≤ (pick s.ports c).repairLimit) :
    closeFrame c r sent s = postFrame c { r with expected := r.expected + n, repairs := r.repairs + n }
      ((s.repaired c r n).checkSent c sent) := by
  have hrun : repairLines c n (s.checkSent c sent) = (s.repaired c r n).checkSent c sent := by
    rw [← repaired_checkSent]
    exact repairLines_within (by simpa [Port.checked] using hr) (by simpa [Port.checked] using hl)
  rw [closeFrame_receive, hn, hrun]
  rw [hn, hrun, State.checkSent_port]
  exact s.repaired_state n

/-- A frame whose last line has come is posted as it stands. -/
theorem closeFrame_whole (sent : Nat) (hr : (pick s.ports c).state = .receive r)
    (hn : (pick s.ports c).height ≤ r.expected) :
    closeFrame c r sent s = postFrame c r (s.checkSent c sent) := by
  have h0 : (pick s.ports c).height - r.expected = 0 := Nat.sub_eq_zero_of_le hn
  rw [closeFrame_receive (r' := r), h0, repairLines]
  rw [h0, repairLines, State.checkSent_port]
  exact hr

/-- A frame whose tail needs more repairs than the limit allows is damaged (R10, R11). -/
theorem closeFrame_past {n : Nat} (sent : Nat) (hr : (pick s.ports c).state = .receive r)
    (hn : (pick s.ports c).height - r.expected = n) (h0 : 0 < n)
    (hl : (pick s.ports c).repairLimit < r.repairs + n) :
    closeFrame c r sent s = repairLines c n (s.checkSent c sent)
      ∧ (pick (closeFrame c r sent s).ports c).state = .discard := by
  have hd : (pick (repairLines c n (s.checkSent c sent)).ports c).state = .discard :=
    repairLines_past_state (by simpa [Port.checked] using hr) h0 (by simpa [Port.checked] using hl)
  have hc := closeFrame_discard (hn.symm ▸ hd)
  rw [hn] at hc
  exact ⟨hc, hc ▸ hd⟩

/-- A Frame End packet in RECEIVE closes the frame. -/
theorem exec_frameEnd_receive {packet : List Byte} {sent : Nat} (hp : parseFrameEnd packet = some sent)
    (hr : (pick s.ports c).state = .receive r) :
    exec (.frameEnd c packet) s = .next (closeFrame c r sent s) := by
  simp [exec, execFrameEnd, hp, hr]

end

/-- The tracked black level, in the terms of R16: its one division is a floor division, and the result is held in 0 to
65,535. -/
theorem trackedBlack_eq (b : Half) (m : Nat) :
    trackedBlack b m = BitVec.ofInt 16 (max 0 (min 65535 ((b.toNat : Int) + ((m : Int) - b.toNat + 4).fdiv 8))) := by
  rw [trackedBlack, Int.fdiv_eq_ediv_of_nonneg _ (by decide), ← BitVec.ofInt_natCast]
  congr 1
  omega

/-- A port after a Frame End that posts the frame, field by field (R11 to R13, R16). -/
theorem Port.posted_checked (p : Port) (r : Reception) (sent m : Nat) :
    (p.checked sent).posted r m = { p with
      state := .wait
      lastSequence := some r.header.copy.sequence
      black := if r.header.copy.kind = .dark ∧ p.darkTracking = true then trackedBlack p.black m else p.black
      counters := { p.counters with
        framesPosted := satInc p.counters.framesPosted
        endMismatches := if sent = p.height then p.counters.endMismatches else satInc p.counters.endMismatches
        sequenceGaps :=
          if ∃ q ∈ p.lastSequence, r.header.copy.sequence ≠ q + 1 then satInc p.counters.sequenceGaps
          else p.counters.sequenceGaps } } := rfl

/-- A view after an offer, by the list it is in. -/
theorem State.offered_view (s : State) (job : Fin 16 → Job) (i : Fin 12) (made skipped : List (Fin 16)) (v : Fin 16) :
    pick (s.offered job i made skipped).views v =
      let w := pick s.views v
      if v ∈ made then { w with counters := { w.counters with admitted := satInc w.counters.admitted } }
      else if v ∈ skipped then
        { w with counters := { w.counters with queueFullSkips := satInc w.counters.queueFullSkips } }
      else w := by
  simp only [State.offered, pick_tabulate, View.offered, decide_eq_true_eq]
  split
  · rfl
  · split <;> rfl

/-- Settles O12, from the two ends of a run of repairs and the one equation of a posting. -/
theorem frameEndPosts : Obligations.FrameEndPosts := by
  intro s c packet sent r hp hr p admitting made skipped
  refine ⟨fun he _ hl => ?_, fun he hl => ⟨_, ?_, rfl⟩, fun he => ?_⟩
  · rw [exec_frameEnd_receive hp hr, (closeFrame_past sent hr rfl (Nat.sub_pos_of_lt he) hl).1]
    rfl
  · have ht := repairLines_within hr hl
    have hwhole : (pick (s.repaired c r (p.height - r.expected)).ports c).height
        ≤ r.expected + (p.height - r.expected) := by
      rw [State.repaired_port, Nat.add_sub_of_le he.le]
      rfl
    rw [exec_frameEnd_receive hp hr, closeFrame_within sent hr rfl hl, ht,
      exec_frameEnd_receive hp (s.repaired_state _), closeFrame_whole sent (s.repaired_state _) hwhole]
  · have ht : exec (.frameEnd c packet) s = .next ((State.offered
        (s.updPort c fun p => (p.checked sent).posted r (s.darkMean c r))
        (r.job c) r.slot made skipped).stopReceiving r.slot) := by
      rw [exec_frameEnd_receive hp hr, closeFrame_whole sent hr he, postFrame_eq, State.checkSent_eq,
        updPort_updPort, State.darkMean_updPort _ _ _ rfl]
      rfl
    refine ⟨_, ht, ?_, fun d hd => pick_upd_other _ _ hd, rfl,
      State.offered_view _ (r.job c) r.slot made skipped, fun i => ?_, rfl⟩
    · refine (pick_upd_same _ _ _).trans ((Port.posted_checked _ _ _ _).trans ?_)
      rw [trackedBlack_eq]
      rfl
    · simp only [State.stopReceiving, State.offered, State.updSource_sourceSlots, State.updPort_sourceSlots, upd_upd,
        pick_upd]

end Sys2Proof.Machine
end

section
/-! PROOFS. The Frame Start (spec/01, R5, R6 and R15). -/

namespace Sys2Proof.Machine

/-! ### Frame Start (R5, R6, R15) -/

/-- A free slot is neither receiving nor referenced (R15). -/
theorem free_iff (x : SourceSlot) : x.free = true ↔ x.receiving = false ∧ x.refs = 0 := by
  simp [SourceSlot.free]

/-- A slot that is not free is receiving or referenced. -/
theorem not_free_iff (x : SourceSlot) : ¬ x.free = true ↔ x.receiving = true ∨ x.refs ≠ 0 := by
  rw [free_iff, Decidable.not_and_iff_or_not, Bool.not_eq_false]

/-- No slot of the camera is free. -/
theorem freeSlot_eq_none {s : State} {c : Fin 4} (h : ∀ k, ¬ (pick s.sourceSlots (sourceSlot c k)).free = true) :
    freeSlot s c = none := by
  rw [freeSlot, if_neg (h 0), if_neg (h 1), if_neg (h 2)]

/-- The lowest-numbered free slot is the one found. -/
theorem freeSlot_eq_some {s : State} {c : Fin 4} {k : Fin 3}
    (hk : (pick s.sourceSlots (sourceSlot c k)).free = true)
    (hlow : ∀ j < k, ¬ (pick s.sourceSlots (sourceSlot c j)).free = true) :
    freeSlot s c = some (sourceSlot c k) := by
  unfold freeSlot
  match k with
  | 0 => rw [if_pos hk]
  | 1 => rw [if_neg (hlow 0 (by decide)), if_pos hk]
  | 2 => rw [if_neg (hlow 0 (by decide)), if_neg (hlow 1 (by decide)), if_pos hk]

/-- The slot found is a free slot of the camera. -/
theorem exists_of_freeSlot {s : State} {c : Fin 4} {i : Fin 12} (h : freeSlot s c = some i) :
    ∃ k, i = sourceSlot c k ∧ (pick s.sourceSlots i).free = true := by
  unfold freeSlot at h
  split at h
  · next hf => cases h; exact ⟨0, rfl, hf⟩
  · split at h
    · next hf => cases h; exact ⟨1, rfl, hf⟩
    · split at h
      · next hf => cases h; exact ⟨2, rfl, hf⟩
      · cases h

section
variable {s : State} {c : Fin 4} {f : FrameStartFields}

/-- A header of no kind or of another geometry is rejected (R5). -/
theorem beginFrame_rejected
    (h : f.kind = none ∨ f.width ≠ (pick s.ports c).width ∨ f.height ≠ (pick s.ports c).height) :
    beginFrame c f s = s.updPort c fun p => { p with
      state := .discard
      counters := { p.counters with geometryRejects := satInc p.counters.geometryRejects } } := by
  unfold beginFrame
  split
  · rw [State.countCamera_eq, updPort_updPort]
  · next kind hk =>
    have hgeo : ¬ (f.width = (pick s.ports c).width ∧ f.height = (pick s.ports c).height) := by
      rw [hk] at h
      tauto
    rw [if_neg hgeo, State.countCamera_eq, updPort_updPort]

/-- With no free slot the frame is dropped (R5, R15). -/
theorem beginFrame_dropped {kind : FrameKind} (hk : f.kind = some kind) (hw : f.width = (pick s.ports c).width)
    (hh : f.height = (pick s.ports c).height) (hn : freeSlot s c = none) :
    beginFrame c f s = s.updPort c fun p => { p with
      state := .discard
      counters := { p.counters with noSlotDrops := satInc p.counters.noSlotDrops } } := by
  simp only [beginFrame, hk, hw, hh, and_self, if_true, hn, State.countCamera_eq, updPort_updPort]

/-- With a free slot the reception begins (R5, R15). -/
theorem beginFrame_received {kind : FrameKind} {i : Fin 12} (hk : f.kind = some kind)
    (hw : f.width = (pick s.ports c).width) (hh : f.height = (pick s.ports c).height) (hi : freeSlot s c = some i) :
    beginFrame c f s = (s.updSource i fun x => { x with receiving := true }).updPort c fun p => { p with
      state := .receive ⟨i, f.header kind, 0, 0⟩ } := by
  simp only [beginFrame, hk, hw, hh, and_self, if_true, hi]

/-- The three things a Frame Start does in WAIT and DISCARD: a reject, a drop, or a reception begun (R5). -/
theorem beginFrame_cases (c : Fin 4) (f : FrameStartFields) (s : State) :
    (∃ k : CameraCounters → CameraCounters,
      beginFrame c f s = s.updPort c fun p => { p with state := .discard, counters := k p.counters })
    ∨ ∃ kind i, freeSlot s c = some i ∧
      beginFrame c f s = (s.updSource i fun x => { x with receiving := true }).updPort c fun p => { p with
        state := .receive ⟨i, f.header kind, 0, 0⟩ } := by
  by_cases h : f.kind = none ∨ f.width ≠ (pick s.ports c).width ∨ f.height ≠ (pick s.ports c).height
  · exact .inl ⟨fun k => { k with geometryRejects := satInc k.geometryRejects }, beginFrame_rejected h⟩
  · obtain ⟨hk, hw, hh⟩ : f.kind ≠ none ∧ f.width = (pick s.ports c).width ∧ f.height = (pick s.ports c).height := by
      tauto
    obtain ⟨kind, hk⟩ := Option.ne_none_iff_exists'.1 hk
    cases hi : freeSlot s c with
    | none => exact .inl ⟨fun k => { k with noSlotDrops := satInc k.noSlotDrops }, beginFrame_dropped hk hw hh hi⟩
    | some i => exact .inr ⟨kind, i, rfl, beginFrame_received hk hw hh hi⟩

/-- In WAIT and DISCARD a Frame Start packet is taken at once. -/
theorem exec_frameStart_ready {packet : List Byte} (hp : parseFrameStart packet = some f)
    (hs : (pick s.ports c).state = .wait ∨ (pick s.ports c).state = .discard) :
    exec (.frameStart c packet) s = .next (beginFrame c f s) := by
  rcases hs with hs | hs <;> simp [exec, execFrameStart, hp, hs]

/-- In RECEIVE the frame being received is closed first, as complete (R6). -/
theorem exec_frameStart_receive {packet : List Byte} {r : Reception} (hp : parseFrameStart packet = some f)
    (hr : (pick s.ports c).state = .receive r) :
    exec (.frameStart c packet) s = .next (beginFrame c f (closeFrame c r (pick s.ports c).height s)) := by
  simp [exec, execFrameStart, hp, hr]

/-- The port a posted frame leaves. -/
theorem postFrame_state {r : Reception} : (pick (postFrame c r s).ports c).state = .wait := by
  rw [postFrame_eq]
  simp [State.stopReceiving, State.offered, Port.posted, Port.tracked, Port.sequenced]

/-- A frame closed leaves the port in WAIT or DISCARD. -/
theorem closeFrame_state {r : Reception} (sent : Nat) (hr : (pick s.ports c).state = .receive r) :
    (pick (closeFrame c r sent s).ports c).state = .wait ∨ (pick (closeFrame c r sent s).ports c).state = .discard := by
  rcases Nat.eq_zero_or_pos ((pick s.ports c).height - r.expected) with h0 | h0
  · rw [closeFrame_whole sent hr (Nat.le_of_sub_eq_zero h0)]
    exact .inl postFrame_state
  · by_cases hl : r.repairs + ((pick s.ports c).height - r.expected) ≤ (pick s.ports c).repairLimit
    · rw [closeFrame_within sent hr rfl hl]
      exact .inl postFrame_state
    · exact .inr (closeFrame_past sent hr rfl h0 (not_le.1 hl)).2

end

/-- Settles O9, from the three things a Frame Start can do and the close that comes first in RECEIVE. -/
theorem frameStartTaken : Obligations.FrameStartTaken := by
  intro s c packet f hp
  refine ⟨fun hs => ?_, fun r hr hh => ?_⟩
  · simp only [exec_frameStart_ready hp hs, ← not_free_iff]
    refine ⟨fun h => by rw [beginFrame_rejected h]; rfl, fun kind hk hw hh => ⟨fun hfull => ?_, fun k h1 h2 hlow => ?_⟩⟩
    · rw [beginFrame_dropped hk hw hh (freeSlot_eq_none hfull)]
      rfl
    · rw [beginFrame_received hk hw hh (freeSlot_eq_some ((free_iff _).2 ⟨h1, h2⟩) hlow)]
      rfl
  · have hstate := closeFrame_state (pick s.ports c).height hr
    exact ⟨_, exec_frameEnd_receive (parseFrameEnd_leBytes hh) hr, hstate, by
      rw [exec_frameStart_receive hp hr, exec_frameStart_ready hp hstate]⟩

end Sys2Proof.Machine
end

section
/-! PROOFS. The camera commands (spec/01, R1, R2 and R17). -/

namespace Sys2Proof.Machine

/-- With the part ready, a started command of the right length answers by its own rule; Load Open and Stream Open
apart, which also look at the load state. -/
theorem runCommand_ready {c : Command} {p : Packet} {rest : List Packet} {s : State} (h : Started c p rest s)
    (hr : Ready s) (ho : c ≠ .loadOpen ∧ c ≠ .streamOpen) (hl : c.lengthFits p.payload = true)
    (rule : List Byte → State → Answer) :
    runCommand c rule s = answerTo p (rule p.payload { s with commandBuffer := rest }) := by
  have hc := checked_ready (payload := p.payload) (rule := rule) (s := { s with commandBuffer := rest })
    hr.running hr.noLoad (.inr ho)
  rw [runCommand_started h, hc, if_pos hl]

/-! ### Set Camera (R1) -/

/-- The range checks of Set Camera, without the camera's number (R1, steps 1 and 2). -/
def setCameraInRange (w h limit : Nat) (tracking : Bool) (d : DarkWindow) : Prop :=
  64 ≤ w ∧ w ≤ 2048 ∧ w % 16 = 0 ∧ 16 ≤ h ∧ h ≤ 1536 ∧ limit ≤ 15
    ∧ (tracking = true → d.x0 % 16 = 0 ∧ d.y0 % 16 = 0 ∧ d.w % 16 = 0 ∧ d.h % 16 = 0 ∧ d.w ≠ 0 ∧ d.h ≠ 0
      ∧ d.x0 + d.w ≤ w ∧ d.y0 + d.h ≤ h)

/-- The range checks as the rule makes them. -/
theorem setCameraInRange_iff (w h limit : Nat) (tracking : Bool) (d : DarkWindow) :
    (cameraRangesHold w h limit && (!tracking || darkWindowFits d w h)) = true
      ↔ setCameraInRange w h limit tracking d := by
  cases tracking <;> simp [setCameraInRange, cameraRangesHold, darkWindowFits, and_assoc]

/-- A slot of the camera is referenced. -/
theorem cameraReferenced_iff (s : State) (c : Fin 4) :
    cameraReferenced s c = true ↔ ∃ k, (pick s.sourceSlots (sourceSlot c k)).refs ≠ 0 := by
  simp [cameraReferenced, Nat.pos_iff_ne_zero]

/-- A Set Camera payload read back (R171). -/
structure SetCameraPayload (payload : List Byte) (camera w h limit : Nat) (tracking : Bool) (d : DarkWindow) :
    Prop where
  length : payload.length = 15
  camera : num payload 0 1 = camera
  width : num payload 1 2 = w
  height : num payload 3 2 = h
  limit : num payload 5 1 = limit
  tracking : switch? (num payload 6 1) = some tracking
  window : (⟨num payload 7 2, num payload 9 2, num payload 11 2, num payload 13 2⟩ : DarkWindow) = d

/-- The payload the layout writes reads back. -/
theorem setCameraPayload_layout {camera w h limit x0 y0 dw dh : Nat} (tracking : Bool) (hc : camera < 256)
    (hw : w < 65536) (hh : h < 65536) (hl : limit < 256) (hx : x0 < 65536) (hy : y0 < 65536) (hdw : dw < 65536)
    (hdh : dh < 65536) :
    SetCameraPayload (leBytes 1 camera ++ leBytes 2 w ++ leBytes 2 h ++ leBytes 1 limit ++ [flagByte tracking]
      ++ leBytes 2 x0 ++ leBytes 2 y0 ++ leBytes 2 dw ++ leBytes 2 dh) camera w h limit tracking ⟨x0, y0, dw, dh⟩ where
  length := rfl
  camera := leNat_leBytes (k := 1) hc
  width := leNat_leBytes (k := 2) hw
  height := leNat_leBytes (k := 2) hh
  limit := leNat_leBytes (k := 1) hl
  tracking := switch?_flagByte tracking
  window := congr (congr (congr (congrArg DarkWindow.mk (leNat_leBytes (k := 2) hx)) (leNat_leBytes (k := 2) hy))
    (leNat_leBytes (k := 2) hdw)) (leNat_leBytes (k := 2) hdh)

section
variable {payload : List Byte} {camera w h limit : Nat} {tracking : Bool} {d : DarkWindow}

/-- Set Camera out of range (R1, steps 1 and 2). -/
theorem setCameraRule_badParam (hp : SetCameraPayload payload camera w h limit tracking d)
    (hr : ¬ (camera < 4 ∧ setCameraInRange w h limit tracking d)) (s : State) :
    setCameraRule payload s = refuse s .badParam := by
  obtain ⟨-, rfl, rfl, rfl, rfl, htracking, rfl⟩ := hp
  rw [setCameraRule, htracking]
  cases hc : below? 4 (num payload 0 1) with
  | none => rfl
  | some c =>
    exact if_neg fun h => hr ⟨below?_eq_some.1 hc ▸ c.isLt, (setCameraInRange_iff ..).1 h⟩

/-- Set Camera in range (R1, steps 3 and 4). -/
theorem setCameraRule_inRange {c : Fin 4} (hp : SetCameraPayload payload c.val w h limit tracking d)
    (hr : setCameraInRange w h limit tracking d) (s : State) :
    setCameraRule payload s =
      if (pick s.ports c).state ≠ .off ∨ ∃ k, (pick s.sourceSlots (sourceSlot c k)).refs ≠ 0 then refuse s .busy
      else accept (s.updPort c fun q => { q with
        width := w, height := h, repairLimit := limit, darkTracking := tracking, window := d }) := by
  obtain ⟨-, hc, rfl, rfl, rfl, htracking, rfl⟩ := hp
  rw [setCameraRule, htracking, below?_eq_some.2 hc.symm]
  simp only [if_pos ((setCameraInRange_iff ..).2 hr), cameraReferenced_iff]

end

/-- Settles O13, by R1's checks in their order. -/
theorem setCameraWrites : Obligations.SetCameraWrites := by
  intro s p rest camera w h limit x0 y0 dw dh tracking hst hready hc hw hh hl hx hy hdw hdh hp inRange
  have hpay := hp ▸ setCameraPayload_layout tracking hc hw hh hl hx hy hdw hdh
  have hexec : exec .setCamera s = answerTo p (setCameraRule p.payload { s with commandBuffer := rest }) :=
    runCommand_ready hst hready (by decide) (by simp [Command.lengthFits, Command.payloadLength, hpay.length]) _
  rw [hexec]
  refine ⟨fun hr => ?_, fun c hcam hr => ?_⟩
  · rw [setCameraRule_badParam hpay hr]
    rfl
  · subst hcam
    rw [setCameraRule_inRange hpay hr.2]
    refine ⟨fun hbusy => ?_, fun hoff hfree => ?_⟩
    · rw [if_pos hbusy]
      rfl
    · rw [if_neg (by simp [hoff, hfree])]
      rfl

/-! ### Camera Enable and Set Black Level (R2, R17) -/

/-- A one-byte number at the front of a payload. -/
theorem num_front_byte {n : Nat} (h : n < 256) (rest : List Byte) : num (leBytes 1 n ++ rest) 0 1 = n :=
  (num_append_front (leBytes 1 n) rest).trans (leNat_leBytes h)

/-- A camera's number at the front of a payload, when there is such a camera. -/
theorem below?_front_byte (c : Fin 4) (rest : List Byte) : below? 4 (num (leBytes 1 c.val ++ rest) 0 1) = some c :=
  below?_eq_some.2 (num_front_byte (by omega) rest).symm

/-- A number past the cameras at the front of a payload. -/
theorem below?_front_byte_none {camera : Nat} (h : camera < 256) (hc : 4 ≤ camera) (rest : List Byte) :
    below? 4 (num (leBytes 1 camera ++ rest) 0 1) = none :=
  below?_eq_none.2 ((num_front_byte h rest).symm ▸ hc)

/-- Camera Enable on a camera there is. -/
theorem cameraEnableRule_layout (c : Fin 4) (on : Bool) (s : State) :
    cameraEnableRule (leBytes 1 c.val ++ [flagByte on]) s
      = if on then enableCamera c s else accept (disableCamera c s) := by
  have hon : switch? (num (leBytes 1 c.val ++ [flagByte on]) 1 1) = some on := switch?_flagByte on
  rw [cameraEnableRule, below?_front_byte, hon]
  cases on <;> rfl

/-- Camera Enable on a camera there is not. -/
theorem cameraEnableRule_badParam {camera : Nat} (h : camera < 256) (hc : 4 ≤ camera) (rest : List Byte) (s : State) :
    cameraEnableRule (leBytes 1 camera ++ rest) s = refuse s .badParam := by
  rw [cameraEnableRule, below?_front_byte_none h hc]

/-- Set Black Level on a camera there is. -/
theorem setBlackLevelRule_layout (c : Fin 4) (level : Half) (s : State) :
    setBlackLevelRule (leBytes 1 c.val ++ leBytes 2 level.toNat) s
      = accept (s.updPort c fun p => { p with black := level }) := by
  have hlevel : num (leBytes 1 c.val ++ leBytes 2 level.toNat) 1 2 = level.toNat := leNat_leBytes (k := 2) level.isLt
  rw [setBlackLevelRule, below?_front_byte, hlevel, ofNat_toNat_self]

/-- Set Black Level on a camera there is not. -/
theorem setBlackLevelRule_badParam {camera : Nat} (h : camera < 256) (hc : 4 ≤ camera) (rest : List Byte)
    (s : State) : setBlackLevelRule (leBytes 1 camera ++ rest) s = refuse s .badParam := by
  rw [setBlackLevelRule, below?_front_byte_none h hc]

/-- Settles O14, by the port's state. -/
theorem cameraEnableAndBlackLevel : Obligations.CameraEnableAndBlackLevel := by
  intro s p rest hready
  refine ⟨fun camera on hst hcam hp => ?_, fun camera level hst hcam hp => ?_⟩
  · have hexec : exec .cameraEnable s = answerTo p (cameraEnableRule p.payload { s with commandBuffer := rest }) :=
      runCommand_ready hst hready (by decide) (by rw [hp]; rfl) _
    rw [hexec, hp]
    refine ⟨fun hbad => by rw [cameraEnableRule_badParam hcam hbad]; rfl, fun c hc => ?_⟩
    subst hc
    rw [cameraEnableRule_layout]
    cases on with
    | true =>
      simp only [if_true, enableCamera]
      cases hs : (pick s.ports c).state with
      | off =>
        by_cases hw : (pick s.ports c).width = 0
        · rw [if_pos hw]
          exact congrArg Host.Outcome.next (if_pos hw).symm
        · rw [if_neg hw]
          exact congrArg Host.Outcome.next (if_neg hw).symm
      | wait => rfl
      | receive r => rfl
      | discard => rfl
    | false =>
      simp only [Bool.false_eq_true, if_false, disableCamera]
      cases hs : (pick s.ports c).state with
      | off => rfl
      | wait => rfl
      | receive r => rfl
      | discard => rfl
  · have hexec : exec .setBlackLevel s = answerTo p (setBlackLevelRule p.payload { s with commandBuffer := rest }) :=
      runCommand_ready hst hready (by decide) (by rw [hp]; rfl) _
    rw [hexec, hp]
    refine ⟨fun hbad => by rw [setBlackLevelRule_badParam hcam hbad]; rfl, fun c hc => ?_⟩
    subst hc
    rw [setBlackLevelRule_layout]
    rfl

end Sys2Proof.Machine
end

section
/-! PROOFS. Power-on reset, the sweep's end, and the invariants right after a reset (spec/11, R169). -/

namespace Sys2Proof.Machine

/-! ### Power-on values -/

/-- Every port after power-on. -/
@[simp] theorem reset_port (c : Fin 4) : pick State.reset.ports c = Port.powerOn := pick_replicate ..

/-- Every source slot after power-on. -/
@[simp] theorem reset_sourceSlot (i : Fin 12) : pick State.reset.sourceSlots i = SourceSlot.powerOn := pick_replicate ..

/-- Every output slot after power-on. -/
@[simp] theorem reset_outputSlot (x : Fin 52) : pick State.reset.outputSlots x = OutputSlot.powerOn := pick_replicate ..

/-- Every descriptor after power-on. -/
@[simp] theorem reset_descriptor (d : Fin 64) : pick State.reset.descriptors d = Descriptor.powerOn := pick_replicate ..

/-- Every view after power-on. -/
@[simp] theorem reset_view (v : Fin 16) : pick State.reset.views v = View.powerOn := pick_replicate ..

/-- The strap pins' value less 1, as a node address (R161). -/
theorem strap_address (strap : Fin 15) : (BitVec.ofNat 8 (strap.val + 1)).toNat = strap.val + 1 := by
  rw [BitVec.toNat_ofNat]
  omega

/-- Settles O6, block by block. -/
theorem powerOnAndSweep : Obligations.PowerOnAndSweep := by
  refine ⟨fun strap s => ⟨_, rfl, rfl, strap_address strap, reset_port, fun i => ?_, fun x => ?_, reset_descriptor,
    rfl, rfl, rfl, rfl, rfl, fun v => ?_, rfl, rfl, rfl, rfl, rfl, rfl, rfl, rfl, rfl, rfl, rfl, rfl, rfl, rfl, rfl,
    rfl, rfl, rfl, rfl⟩, fun s hs => ?_⟩
  · have h := reset_sourceSlot i
    exact ⟨congrArg SourceSlot.receiving h, congrArg SourceSlot.refs h⟩
  · have h := reset_outputSlot x
    exact ⟨congrArg OutputSlot.generation h, congrArg OutputSlot.held h⟩
  · change (pick State.reset.views v).state = _ ∧ _
    rw [reset_view]
    exact ⟨rfl, rfl, rfl, rfl, rfl, rfl, rfl, rfl, rfl⟩
  · have hexec : exec .startupSweepEnd s = .next { s with starting := false, tableStore := [] } := by
      simp [exec, execStartupSweepEnd, hs]
    exact ⟨_, hexec, rfl, fun a => rfl, rfl⟩

/-! ### The invariants right after a reset -/

/-- Nothing is queued after power-on. -/
theorem queuesBounded_reset : QueuesBounded State.reset where
  commands := by decide
  responses := by decide
  notices := by decide
  jobs := by decide
  records := by decide
  forwards := by decide
  relay := by decide
  forwardOrder := .nil

/-- No job names a slot after power-on. -/
theorem referencesCounted_reset : ReferencesCounted State.reset := fun i => by
  rw [reset_sourceSlot]
  rfl

/-- No entry is queued after power-on. -/
theorem forwardsDistinct_reset : ForwardsDistinct State.reset where
  distinct := .nil
  fresh := fun _ h => absurd h (Option.not_mem_none _)

/-- No port receives after power-on. -/
theorem intakeSound_reset : IntakeSound State.reset where
  ports c r hr := by
    rw [reset_port] at hr
    cases hr
  slots i hi := by
    rw [reset_sourceSlot] at hi
    cases hi

/-- No output slot is held after power-on. -/
theorem holdsSound_reset : HoldsSound State.reset where
  held x := by
    rw [reset_outputSlot]
    exact ⟨fun h => absurd h Bool.false_ne_true, fun ⟨_, h, _⟩ => absurd h (Option.not_mem_none _)⟩
  writeSlot := fun _ h => absurd h (Option.not_mem_none _)

/-- The tables after power-on. -/
theorem tablesSound_reset : TablesSound State.reset where
  descriptors d := by
    rw [reset_descriptor]
    decide
  null := reset_descriptor 0
  loads := trivial
  idle _ := rfl
  pinCount := by decide
  pinWords := fun _ h => absurd h List.not_mem_nil
  reserved := fun _ h => absurd h (Option.not_mem_none _)

/-- A view after power-on is sound on its own. -/
theorem viewFits_powerOn : ViewFits View.powerOn where
  buffer := ⟨rfl, rfl⟩
  range h := absurd rfl h
  geometry h := absurd rfl h
  fill := by decide
  forwarding := ⟨rfl, rfl, rfl⟩
  active := nofun
  disabled _ := ⟨rfl, rfl, rfl, rfl, rfl⟩

/-- The views after power-on. -/
theorem viewsSound_reset : ViewsSound State.reset where
  each v := reset_view v ▸ viewFits_powerOn
  apart u v _ := by
    rw [reset_view, reset_view]
    decide

/-- No job after power-on. -/
theorem jobsSound_reset : JobsSound State.reset where
  queued := fun _ h => absurd h List.not_mem_nil
  inFlight := fun _ h => absurd h (Option.not_mem_none _)
  closing v hv := by
    rw [reset_view] at hv
    cases hv

/-- No record after power-on. -/
theorem recordsSound_reset : RecordsSound State.reset where
  bound := by decide
  numbers := rfl
  newest := fun _ h => absurd h (Option.not_mem_none _)
  inProgress := fun _ h => absurd h List.not_mem_nil
  parts := fun _ h => absurd h List.not_mem_nil

/-- No tallies after power-on. -/
theorem talliesSound_reset : TalliesSound State.reset where
  counted := fun _ h => absurd h (Option.not_mem_none _)
  saturated := fun _ h => absurd h (Option.not_mem_none _)
  kept := fun _ h => absurd h (Option.not_mem_none _)
  binned := fun _ h => absurd h (Option.not_mem_none _)

/-- Settles O55, invariant by invariant. -/
theorem soundAtReset : Obligations.SoundAtReset :=
  ⟨memory_wf_reset, queuesBounded_reset, referencesCounted_reset, forwardsDistinct_reset, intakeSound_reset,
    holdsSound_reset, tablesSound_reset, viewsSound_reset, jobsSound_reset, recordsSound_reset, talliesSound_reset⟩

end Sys2Proof.Machine
end

section
/-! PROOFS. What the slots' invariants read, and the commands that leave it alone (spec/01 R14 and R15, spec/09 R91 and
R136). -/

namespace Sys2Proof.Machine

/-! ### The invariants and what they read -/

/-- The three invariants of the slots (R14, R15, R91, R136). -/
structure SlotsSound (s : State) : Prop where
  counted : ReferencesCounted s
  intake : IntakeSound s
  holds : HoldsSound s

/-- The lines of the referenced source slots stand, and the cells and the generation of the held output slots. -/
structure SlotsStand (s t : State) : Prop where
  rows : ∀ i, 0 < (pick s.sourceSlots i).refs → (pick t.sourceSlots i).rows = (pick s.sourceSlots i).rows
  held : ∀ x, (pick s.outputSlots x).held = true →
    (pick t.outputSlots x).cells = (pick s.outputSlots x).cells
      ∧ (pick t.outputSlots x).generation = (pick s.outputSlots x).generation

/-- A change keeps the slots sound, and what is in use stands. -/
def SlotsCarried (s t : State) : Prop := SlotsSound s → SlotsSound t ∧ SlotsStand s t

/-- What the intake's invariant reads of a port: the reception with the height and the repair limit that bound it. -/
def Port.intake (p : Port) : Option (Reception × Nat × Nat) := p.reception?.map fun r => (r, p.height, p.repairLimit)

/-- What the slots' invariants read of a state. -/
structure SlotParts where
  intake : Fin 4 → Option (Reception × Nat × Nat)
  sources : Vector SourceSlot 12
  outputs : Vector OutputSlot 52
  jobs : List Job
  flight : Option Flight
  sending : Option ForwardEntry

/-- The parts of a state that the slots' invariants read. -/
def State.slotParts (s : State) : SlotParts where
  intake c := (pick s.ports c).intake
  sources := s.sourceSlots
  outputs := s.outputSlots
  jobs := s.jobs
  flight := s.flight
  sending := s.transmission.map Transmission.entry

/-- A port's reception, read with its bounds. -/
theorem mem_intake {p : Port} {r : Reception} {h l : Nat} :
    (r, h, l) ∈ p.intake ↔ r ∈ p.reception? ∧ p.height = h ∧ p.repairLimit = l := by
  simp [Port.intake]

/-- The entry being sent is the current transmission's. -/
theorem exists_transmission_iff {s : State} {q : ForwardEntry → Prop} :
    (∃ t ∈ s.transmission, q t.entry) ↔ ∃ e ∈ s.slotParts.sending, q e := by
  simp [State.slotParts]

/-- One slot of a camera: its number among the twelve (01 1.1). -/
def cameraOf (i : Fin 12) : Fin 4 := ⟨i.val / 3, by omega⟩

/-- The intake of one camera: its receiving slots are the one it writes, which no job names (R5, R12, R14, R15). -/
structure CameraFits (s : State) (c : Fin 4) : Prop where
  slots : ∀ i, cameraOf i = c →
    ((pick s.sourceSlots i).receiving = true ↔ ∃ r ∈ (pick s.ports c).reception?, r.slot = i)
  port : ∀ r ∈ (pick s.ports c).reception?, cameraOf r.slot = c ∧ (pick s.sourceSlots r.slot).refs = 0
    ∧ r.expected ≤ (pick s.ports c).height ∧ r.repairs ≤ (pick s.ports c).repairLimit

/-- The intake's invariant, camera by camera: a slot has one camera. -/
theorem intakeSound_iff (s : State) : IntakeSound s ↔ ∀ c, CameraFits s c := by
  constructor
  · intro h c
    refine ⟨fun i hi => ⟨fun hrec => ?_, ?_⟩, fun r hr => ?_⟩
    · obtain ⟨d, r, hr, rfl⟩ := h.slots i hrec
      have hd : d = c := (Fin.ext (h.ports d r hr).1).symm.trans hi
      exact ⟨r, hd ▸ hr, rfl⟩
    · rintro ⟨r, hr, rfl⟩
      exact (h.ports c r hr).2.1
    · obtain ⟨hcam, -, hrest⟩ := h.ports c r hr
      exact ⟨Fin.ext hcam, hrest⟩
  · intro h
    refine ⟨fun c r hr => ?_, fun i hi => ⟨cameraOf i, ((h _).slots i rfl).1 hi⟩⟩
    obtain ⟨hcam, hrest⟩ := (h c).port r hr
    exact ⟨congrArg Fin.val hcam, ((h c).slots _ hcam).2 ⟨r, hr, rfl⟩, hrest⟩

section
variable {s t : State}

/-- One camera's intake after a change that leaves its reception and bounds, which of its slots receive, and drops
references at most. -/
theorem CameraFits.congr {c : Fin 4} (h : CameraFits s c) (hp : (pick t.ports c).intake = (pick s.ports c).intake)
    (hr : ∀ i, cameraOf i = c → (pick t.sourceSlots i).receiving = (pick s.sourceSlots i).receiving)
    (hn : ∀ i, cameraOf i = c → (pick t.sourceSlots i).refs ≤ (pick s.sourceSlots i).refs) : CameraFits t c := by
  have hmem : ∀ r, r ∈ (pick t.ports c).reception? → r ∈ (pick s.ports c).reception?
      ∧ (pick s.ports c).height = (pick t.ports c).height
      ∧ (pick s.ports c).repairLimit = (pick t.ports c).repairLimit := fun r hr =>
    mem_intake.1 (hp ▸ mem_intake.2 ⟨hr, rfl, rfl⟩)
  have hmem' : ∀ r, r ∈ (pick s.ports c).reception? → r ∈ (pick t.ports c).reception? := fun r hr =>
    (mem_intake.1 (hp ▸ mem_intake.2 ⟨hr, rfl, rfl⟩)).1
  refine ⟨fun i hi => ?_, fun r hrec => ?_⟩
  · rw [hr i hi, h.slots i hi]
    exact exists_congr fun r => and_congr_left fun _ => ⟨hmem' r, fun k => (hmem r k).1⟩
  · obtain ⟨hs, hh, hl⟩ := hmem r hrec
    obtain ⟨hcam, hrefs, he, hrep⟩ := h.port r hs
    exact ⟨hcam, Nat.le_zero.1 (hrefs ▸ hn _ hcam), hh ▸ he, hl ▸ hrep⟩

/-- Soundness reads the parts only. -/
theorem SlotsSound.congr (h : SlotsSound s) (hp : t.slotParts = s.slotParts) : SlotsSound t := by
  have hsources : t.sourceSlots = s.sourceSlots := congrArg SlotParts.sources hp
  have houtputs : t.outputSlots = s.outputSlots := congrArg SlotParts.outputs hp
  have hjobs : t.jobs = s.jobs := congrArg SlotParts.jobs hp
  have hflight : t.flight = s.flight := congrArg SlotParts.flight hp
  refine ⟨fun i => ?_, (intakeSound_iff t).2 fun c => ?_, ⟨fun x => ?_, ?_⟩⟩
  · rw [State.jobsNaming, hsources, hjobs, hflight]
    exact h.counted i
  · exact ((intakeSound_iff s).1 h.intake c).congr (congrFun (congrArg SlotParts.intake hp) c)
      (fun i _ => by rw [hsources]) fun i _ => by rw [hsources]
  · rw [houtputs, h.holds.held x, exists_transmission_iff (q := fun e => e.mark.slot = x), ← hp,
      exists_transmission_iff (q := fun e => e.mark.slot = x)]
  · rw [hflight, houtputs]
    exact h.holds.writeSlot

/-- What stands is read from the slots. -/
theorem SlotsStand.congr {s' t' : State} (h : SlotsStand s t) (hs : s'.slotParts = s.slotParts)
    (ht : t'.slotParts = t.slotParts) : SlotsStand s' t' := by
  have hss : s'.sourceSlots = s.sourceSlots := congrArg SlotParts.sources hs
  have hso : s'.outputSlots = s.outputSlots := congrArg SlotParts.outputs hs
  have hts : t'.sourceSlots = t.sourceSlots := congrArg SlotParts.sources ht
  have hto : t'.outputSlots = t.outputSlots := congrArg SlotParts.outputs ht
  constructor
  · rw [hss, hts]
    exact h.rows
  · rw [hso, hto]
    exact h.held

/-- Everything stands where nothing changes. -/
theorem SlotsStand.refl (s : State) : SlotsStand s s := ⟨fun _ _ => rfl, fun _ _ => ⟨rfl, rfl⟩⟩

/-- A change is judged by the parts before and after it. -/
theorem SlotsCarried.congr {s' t' : State} (h : SlotsCarried s t) (hs : s'.slotParts = s.slotParts)
    (ht : t'.slotParts = t.slotParts) : SlotsCarried s' t' := fun hsound => by
  obtain ⟨hsound', hstand⟩ := h (hsound.congr hs.symm)
  exact ⟨hsound'.congr ht, hstand.congr hs ht⟩

/-- A change that leaves the parts. -/
theorem SlotsCarried.of_parts (h : t.slotParts = s.slotParts) : SlotsCarried s t := fun hs =>
  ⟨hs.congr h, (SlotsStand.refl s).congr rfl h⟩

end

/-! ### Operations that leave the parts -/

/-- A port update that leaves the port's reception and its bounds. -/
theorem slotParts_updPort {s : State} {c : Fin 4} {f : Port → Port}
    (h : (f (pick s.ports c)).intake = (pick s.ports c).intake) : (s.updPort c f).slotParts = s.slotParts := by
  have : (fun d => (pick (upd s.ports c f) d).intake) = fun d => (pick s.ports d).intake := funext fun d => by
    rw [pick_upd]
    split
    · next e => rw [e, h]
    · rfl
  simp only [State.slotParts, State.updPort, this]

/-- Camera counters. -/
@[simp] theorem slotParts_countCamera (s : State) (c : Fin 4) (f : CameraCounters → CameraCounters) :
    (s.countCamera c f).slotParts = s.slotParts := slotParts_updPort rfl

/-- A notice. -/
@[simp] theorem slotParts_raise (s : State) (n : Notice) : (s.raise n).slotParts = s.slotParts := by
  obtain ⟨q, k, i, h⟩ := raise_only s n
  rw [h]
  rfl

/-- A view that leaves its waiting state. -/
@[simp] theorem slotParts_settle (s : State) (v : Fin 16) : (s.settle v).slotParts = s.slotParts := by
  rw [settle_eq]
  rfl

/-- An offer to the Forward Queue. -/
@[simp] theorem slotParts_offer (s : State) (e : ForwardEntry) : (s.offer e).slotParts = s.slotParts := by
  obtain ⟨fq, vs, q, k, i, h⟩ := offer_only s e
  rw [h]
  rfl

/-! ### The interpreter (R163) -/

/-- The state an answer leaves; a fault leaves none, and the state it stops in stands for it. -/
def Answer.left (s : State) : Answer → State
  | .reply t _ _ => t
  | .stop _ => s

/-- A command's rule that leaves the parts the slots' invariants read. -/
def Quiet (rule : List Byte → State → Answer) : Prop :=
  ∀ payload s, ((rule payload s).left s).slotParts = s.slotParts

/-- The checks of R163 leave the parts, or the rule runs. -/
theorem checked_carried {rule : List Byte → State → Answer} (h : ∀ payload s, SlotsCarried s ((rule payload s).left s))
    (c : Command) (payload : List Byte) (s : State) : SlotsCarried s ((checked c payload rule s).left s) := by
  rcases checked_cases c payload rule s with ⟨-, -, e⟩ | ⟨-, -, e⟩ | ⟨-, -, e⟩ | ⟨-, e⟩ | ⟨-, e⟩ <;> rw [e]
  · exact .of_parts rfl
  · exact .of_parts rfl
  · exact .of_parts rfl
  · exact .of_parts rfl
  · exact h payload s

/-- A row of the interpreter carries the slots when its command's rule does. -/
theorem runCommand_carried {rule : List Byte → State → Answer}
    (h : ∀ payload s, SlotsCarried s ((rule payload s).left s)) {c : Command} {s t : State}
    (ht : runCommand c rule s = .next t) : SlotsCarried s t := by
  rcases runCommand_cases c rule s with e | ⟨p, rest, -, ⟨u, status, data, hu, e⟩ | ⟨f, -, e⟩⟩
  · cases e.symm.trans ht
    exact .of_parts rfl
  · cases e.symm.trans ht
    have := checked_carried h c p.payload { s with commandBuffer := rest }
    rw [hu] at this
    exact this.congr rfl rfl
  · cases e.symm.trans ht

/-- A row whose command's rule is quiet carries the slots. -/
theorem Quiet.carried {rule : List Byte → State → Answer} (h : Quiet rule) {c : Command} {s t : State}
    (ht : runCommand c rule s = .next t) : SlotsCarried s t :=
  runCommand_carried (fun payload s => .of_parts (h payload s)) ht

/-- A row also executed by broadcast carries the slots when its rule and its effect do. -/
theorem runBroadcastable_carried {rule : List Byte → State → Answer} {effect : List Byte → State → State}
    (h : ∀ payload s, SlotsCarried s ((rule payload s).left s)) (he : ∀ payload s, SlotsCarried s (effect payload s))
    {c : Command} {s t : State} (ht : runBroadcastable c rule effect s = .next t) : SlotsCarried s t := by
  rcases runBroadcastable_cases c rule effect s with e | ⟨p, rest, -, -, -, -, e⟩
  · exact runCommand_carried h (e ▸ ht)
  · cases e.symm.trans ht
    exact (he p.payload { s with commandBuffer := rest }).congr rfl rfl

/-! ### The quiet commands

In every branch of each of these rules the fields that change are none the slots' invariants read, so the parts agree by
unfolding; where a branch makes one of the shared operations above, its lemma says so. -/

/-! ### Descriptors, window, loads and Read Table (spec/02, spec/03) -/

theorem quiet_writeDescriptor : Quiet writeDescriptorRule := fun payload s => by
  simp only [writeDescriptorRule]
  repeat' split
  all_goals rfl

theorem quiet_readDescriptor : Quiet readDescriptorRule := fun payload s => by
  simp only [readDescriptorRule]
  repeat' split
  all_goals rfl

theorem quiet_clearAccessed : Quiet clearAccessedRule := fun _ _ => rfl

theorem quiet_lock (next : LockState → Option LockState) : Quiet (lockRule next) := fun payload s => by
  simp only [lockRule]
  repeat' split
  all_goals rfl

theorem quiet_setWindow : Quiet setWindowRule := fun payload s => by
  simp only [setWindowRule]
  repeat' split
  all_goals rfl

theorem quiet_protectionLock : Quiet protectionLockRule := fun _ _ => rfl

theorem quiet_loadOpen : Quiet loadOpenRule := fun payload s => by
  simp only [loadOpenRule]
  repeat' split
  all_goals rfl

theorem quiet_loadData : Quiet loadDataRule := fun payload s => by
  simp only [loadDataRule]
  repeat' split
  all_goals rfl

theorem quiet_loadCommit : Quiet loadCommitRule := fun payload s => by
  simp only [loadCommitRule]
  repeat' split
  all_goals rfl

theorem quiet_loadCancel : Quiet loadCancelRule := fun payload s => by
  simp only [loadCancelRule]
  repeat' split
  all_goals rfl

theorem quiet_streamOpen : Quiet streamOpenRule := fun payload s => by
  simp only [streamOpenRule]
  repeat' split
  all_goals rfl

theorem quiet_streamData : Quiet streamDataRule := fun payload s => by
  simp only [streamDataRule]
  repeat' split
  all_goals rfl

theorem quiet_streamCancel : Quiet streamCancelRule := fun payload s => by
  simp only [streamCancelRule]
  repeat' split
  all_goals rfl

theorem quiet_readTable : Quiet readTableRule := fun payload s => by
  simp only [readTableRule]
  repeat' split
  all_goals rfl

/-! ### Views (spec/04) -/

theorem quiet_writeView : Quiet writeViewRule := fun payload s => by
  simp only [writeViewRule]
  repeat' split
  all_goals rfl

theorem quiet_readView : Quiet readViewRule := fun payload s => by
  simp only [readViewRule]
  repeat' split
  all_goals rfl

theorem quiet_viewActivate : Quiet viewActivateRule := fun payload s => by
  simp only [viewActivateRule]
  repeat' split
  all_goals rfl

theorem quiet_viewHold : Quiet viewHoldRule := fun payload s => by
  simp only [viewHoldRule]
  repeat' split
  all_goals rfl

/-! ### Records, forwarding and management (spec/09 to spec/11) -/

theorem quiet_readRecords : Quiet readRecordsRule := fun payload s => by
  simp only [readRecordsRule]
  repeat' split
  all_goals rfl

/-- The Time Tag Counter's update. -/
theorem slotParts_setTimeTag (payload : List Byte) (s : State) : (setTimeTag payload s).slotParts = s.slotParts := by
  unfold setTimeTag
  split <;> rfl

theorem quiet_setTimeTag : Quiet setTimeTagRule := fun payload s => by
  simp only [setTimeTagRule]
  split
  · exact slotParts_setTimeTag payload s
  · rfl

theorem quiet_uplinkPause : Quiet uplinkPauseRule := fun _ _ => rfl

theorem quiet_uplinkResume : Quiet uplinkResumeRule := fun _ _ => rfl

theorem quiet_identify : Quiet identifyRule := fun _ _ => rfl

theorem quiet_getStatus : Quiet getStatusRule := fun _ _ => rfl

theorem quiet_clearStatus : Quiet clearStatusRule := fun payload s => by
  simp only [clearStatusRule]
  repeat' split
  all_goals rfl

theorem quiet_setNoticeMask : Quiet setNoticeMaskRule := fun payload s => by
  simp only [setNoticeMaskRule]
  repeat' split
  all_goals rfl

theorem quiet_readCounters : Quiet readCountersRule := fun payload s => by
  simp only [readCountersRule]
  split
  · rfl
  · next clear _ =>
    split
    · split
      · rfl
      · next c _ =>
        cases clear with
        | false => rfl
        | true => exact slotParts_countCamera s c fun _ => CameraCounters.zero
    · split
      · rfl
      · cases clear <;> rfl
    · cases clear <;> rfl
    · rfl

theorem quiet_setBlackLevel : Quiet setBlackLevelRule := fun payload s => by
  simp only [setBlackLevelRule]
  split
  · exact slotParts_updPort rfl
  · rfl

/-- A recall at most offers an entry to the Forward Queue. -/
theorem slotParts_recallRecord {n : RecordNumber} {s t : State} {d : Disposition}
    (h : recallRecord n s = .ok (t, d)) : t.slotParts = s.slotParts := by
  unfold recallRecord at h
  split at h
  · cases h
  · split at h
    · cases h
    · split at h
      · cases h
      · split at h
        · cases h
        · split at h
          · cases h
            rfl
          · cases h
            exact slotParts_offer s _

theorem quiet_recallFrame : Quiet recallFrameRule := fun payload s => by
  simp only [recallFrameRule]
  split
  · rfl
  · next h => exact slotParts_recallRecord h

theorem quiet_recallLatest : Quiet recallLatestRule := fun payload s => by
  simp only [recallLatestRule]
  split
  · rfl
  · split
    · rfl
    · split
      · rfl
      · next h => exact slotParts_recallRecord h

/-- A flush keeps the entry of the transmission it truncates. -/
@[simp] theorem flush_entry (t : Transmission) : t.flush.entry = t.entry := by
  unfold Transmission.flush
  split <;> rfl

theorem quiet_uplinkFlush : Quiet uplinkFlushRule := fun payload s => by
  simp [uplinkFlushRule, Answer.left, State.slotParts, Function.comp_def]

end Sys2Proof.Machine
end

section
/-! PROOFS. The camera packets and the camera commands keep the slots sound (spec/01 R5, R8 to R12, R14, R15). -/

namespace Sys2Proof.Machine

/-! ### What an event of one camera may do -/

/-- Jobs of the queue that name source slot `i`. -/
def State.queuedNaming (s : State) (i : Fin 12) : Nat := s.jobs.countP fun j => j.slot == i

/-- An event of camera `c`: the other cameras' intakes and slots, the output side and the job in flight stand; a slot
gains a reference for each job the queue gains; and the lines of a referenced slot, which stays referenced, stand. -/
structure CameraMove (c : Fin 4) (s t : State) : Prop where
  ports : ∀ d, d ≠ c → (pick t.ports d).intake = (pick s.ports d).intake
  slots : ∀ i, cameraOf i ≠ c → (pick t.sourceSlots i).receiving = (pick s.sourceSlots i).receiving
    ∧ (pick t.sourceSlots i).refs = (pick s.sourceSlots i).refs
  outputs : t.outputSlots = s.outputSlots
  flight : t.flight = s.flight
  sending : t.transmission = s.transmission
  refs : ∀ i, (pick t.sourceSlots i).refs + s.queuedNaming i = (pick s.sourceSlots i).refs + t.queuedNaming i
  rows : ∀ i, 0 < (pick s.sourceSlots i).refs →
    0 < (pick t.sourceSlots i).refs ∧ (pick t.sourceSlots i).rows = (pick s.sourceSlots i).rows

/-- An event of camera `c` that leaves its intake sound. -/
def CameraStep (c : Fin 4) (s t : State) : Prop := CameraMove c s t ∧ CameraFits t c

section
variable {c : Fin 4} {s t u : State}

/-- Two events of a camera, one after the other. -/
theorem CameraMove.trans (h : CameraMove c s t) (k : CameraMove c t u) : CameraMove c s u where
  ports d hd := (k.ports d hd).trans (h.ports d hd)
  slots i hi := ⟨(k.slots i hi).1.trans (h.slots i hi).1, (k.slots i hi).2.trans (h.slots i hi).2⟩
  outputs := k.outputs.trans h.outputs
  flight := k.flight.trans h.flight
  sending := k.sending.trans h.sending
  refs i := by
    have h1 := h.refs i
    have h2 := k.refs i
    omega
  rows i hi := by
    obtain ⟨hpos, hrows⟩ := h.rows i hi
    obtain ⟨hpos', hrows'⟩ := k.rows i hpos
    exact ⟨hpos', hrows'.trans hrows⟩

/-- No event. -/
theorem CameraMove.refl (c : Fin 4) (s : State) : CameraMove c s s :=
  ⟨fun _ _ => rfl, fun _ _ => ⟨rfl, rfl⟩, rfl, rfl, rfl, fun _ => rfl, fun _ h => ⟨h, rfl⟩⟩

/-- A change of the camera's port. -/
theorem CameraMove.updPort (c : Fin 4) (s : State) (f : Port → Port) : CameraMove c s (s.updPort c f) :=
  { CameraMove.refl c s with
    ports := fun d hd => by rw [State.updPort_ports, pick_upd_other _ _ hd] }

/-- A change of one of the camera's slots that keeps its references, and its lines if it has any. -/
theorem CameraMove.updSource {i : Fin 12} {f : SourceSlot → SourceSlot} (s : State) (hi : cameraOf i = c)
    (hrefs : ∀ x, (f x).refs = x.refs)
    (hrows : 0 < (pick s.sourceSlots i).refs → (f (pick s.sourceSlots i)).rows = (pick s.sourceSlots i).rows) :
    CameraMove c s (s.updSource i f) :=
  { CameraMove.refl c s with
    slots := fun j hj => by
      rw [State.updSource_sourceSlots, pick_upd_other _ _ fun e => hj ((congrArg cameraOf e).trans hi)]
      exact ⟨rfl, rfl⟩
    refs := fun j => by
      rw [State.updSource_sourceSlots, pick_upd]
      split
      · rw [hrefs]; rfl
      · rfl
    rows := fun j hj => by
      rw [State.updSource_sourceSlots, pick_upd]
      split
      · next e => exact ⟨(hrefs _).symm ▸ hj, e ▸ hrows (e ▸ hj)⟩
      · exact ⟨hj, rfl⟩ }

/-- A slot of the camera no longer receiving. -/
theorem CameraMove.stopReceiving {i : Fin 12} (s : State) (hi : cameraOf i = c) :
    CameraMove c s (s.stopReceiving i) :=
  .updSource s hi (f := fun x => { x with receiving := false }) (fun _ => rfl) fun _ => rfl

/-- The slots are sound after an event of one camera that leaves that camera's intake sound. -/
theorem SlotsSound.of_cameraStep (h : SlotsSound s) (k : CameraStep c s t) : SlotsSound t := by
  obtain ⟨hm, hc⟩ := k
  refine ⟨fun i => ?_, (intakeSound_iff t).2 fun d => ?_, ⟨fun x => ?_, ?_⟩⟩
  · have hr := hm.refs i
    have hs := h.counted i
    simp only [State.jobsNaming, State.queuedNaming, hm.flight] at hr hs ⊢
    omega
  · by_cases hd : d = c
    · exact hd ▸ hc
    · exact ((intakeSound_iff s).1 h.intake d).congr (hm.ports d hd) (fun i hi => (hm.slots i (hi ▸ hd)).1)
        fun i hi => (hm.slots i (hi ▸ hd)).2.le
  · rw [hm.outputs, hm.sending]
    exact h.holds.held x
  · rw [hm.flight, hm.outputs]
    exact h.holds.writeSlot

/-- An event of one camera carries the slots when it leaves the camera's intake sound. -/
theorem SlotsCarried.of_cameraStep (h : CameraFits s c → CameraStep c s t) : SlotsCarried s t := fun hs => by
  have k := h ((intakeSound_iff s).1 hs.intake c)
  exact ⟨hs.of_cameraStep k, fun i hi => (k.1.rows i hi).2, fun x _ => by rw [k.1.outputs]; exact ⟨rfl, rfl⟩⟩

/-! ### The intake of the camera after an event -/

/-- The reception of a port in RECEIVE. -/
theorem reception?_receive {p : Port} {r : Reception} (h : p.state = .receive r) : p.reception? = some r := by
  simp [Port.reception?, h]

/-- A port outside RECEIVE has none. -/
theorem reception?_eq_none {p : Port} (h : ∀ r, p.state ≠ .receive r) : p.reception? = none := by
  unfold Port.reception?
  split
  · next r hr => exact absurd hr (h r)
  · rfl
  · rfl
  · rfl

/-- In RECEIVE the intake writes a slot of its own camera that no job names, its bounds kept. -/
theorem CameraFits.receiving {r : Reception} (h : CameraFits s c) (hr : (pick s.ports c).state = .receive r) :
    cameraOf r.slot = c ∧ (pick s.sourceSlots r.slot).refs = 0 ∧ r.expected ≤ (pick s.ports c).height
      ∧ r.repairs ≤ (pick s.ports c).repairLimit :=
  h.port r (reception?_receive hr)

/-- The reception goes on in its slot. -/
theorem CameraFits.advance {r r' : Reception} (h : CameraFits s c) (hr : (pick s.ports c).state = .receive r)
    (hr' : (pick t.ports c).state = .receive r') (hslot : r'.slot = r.slot)
    (hrec : ∀ i, (pick t.sourceSlots i).receiving = (pick s.sourceSlots i).receiving)
    (hrefs : ∀ i, (pick t.sourceSlots i).refs = (pick s.sourceSlots i).refs)
    (he : r'.expected ≤ (pick t.ports c).height) (hrep : r'.repairs ≤ (pick t.ports c).repairLimit) :
    CameraFits t c := by
  have hs := reception?_receive hr
  have ht := reception?_receive hr'
  refine ⟨fun i hi => ?_, fun q hq => ?_⟩
  · rw [hrec, h.slots i hi, hs, ht]
    simp [hslot]
  · obtain rfl : r' = q := Option.some.inj (ht.symm.trans hq)
    rw [hslot, hrefs]
    exact ⟨(h.receiving hr).1, (h.receiving hr).2.1, he, hrep⟩

/-- The reception has ended and its slot is no longer receiving. -/
theorem CameraFits.closed {r : Reception} (h : CameraFits s c) (hr : (pick s.ports c).state = .receive r)
    (ht : ∀ q, (pick t.ports c).state ≠ .receive q) (hslot : (pick t.sourceSlots r.slot).receiving = false)
    (hrec : ∀ i, i ≠ r.slot → (pick t.sourceSlots i).receiving = (pick s.sourceSlots i).receiving) :
    CameraFits t c := by
  have hn := reception?_eq_none ht
  refine ⟨fun i hi => ?_, fun q hq => absurd (hn ▸ hq) (Option.not_mem_none q)⟩
  have hfalse : (pick t.sourceSlots i).receiving = false := by
    by_cases e : i = r.slot
    · exact e ▸ hslot
    · rw [hrec i e, ← Bool.not_eq_true, h.slots i hi, reception?_receive hr]
      simpa using Ne.symm e
  simp [hfalse, hn]

/-- A reception has begun in a free slot of the camera. -/
theorem CameraFits.begun {r : Reception} (h : CameraFits s c) (hs : ∀ q, (pick s.ports c).state ≠ .receive q)
    (hr : (pick t.ports c).state = .receive r) (hcam : cameraOf r.slot = c)
    (hrefs : (pick t.sourceSlots r.slot).refs = 0) (hslot : (pick t.sourceSlots r.slot).receiving = true)
    (hrec : ∀ i, i ≠ r.slot → (pick t.sourceSlots i).receiving = (pick s.sourceSlots i).receiving)
    (he : r.expected = 0) (hrep : r.repairs = 0) : CameraFits t c := by
  have ht := reception?_receive hr
  refine ⟨fun i hi => ?_, fun q hq => ?_⟩
  · by_cases e : i = r.slot
    · subst e
      simp [hslot, ht]
    · have hnone := h.slots i hi
      rw [reception?_eq_none hs] at hnone
      rw [hrec i e, hnone, ht]
      simpa using Ne.symm e
  · obtain rfl : r = q := Option.some.inj (ht.symm.trans hq)
    exact ⟨hcam, hrefs, he ▸ Nat.zero_le _, hrep ▸ Nat.zero_le _⟩

/-- An event that leaves the parts leaves the camera's intake. -/
theorem CameraFits.of_parts (h : CameraFits s c) (hp : t.slotParts = s.slotParts) : CameraFits t c := by
  have hs : t.sourceSlots = s.sourceSlots := congrArg SlotParts.sources hp
  exact h.congr (congrFun (congrArg SlotParts.intake hp) c) (fun i _ => by rw [hs]) fun i _ => by rw [hs]

end

/-! ### Repairs and lines -/

section
variable {c : Fin 4} {s : State} {r : Reception}

/-- Repairs within the limit. -/
theorem cameraStep_repaired {n : Nat} (h : CameraFits s c) (hr : (pick s.ports c).state = .receive r)
    (he : r.expected + n ≤ (pick s.ports c).height) (hl : r.repairs + n ≤ (pick s.ports c).repairLimit) :
    CameraStep c s (s.repaired c r n) := by
  obtain ⟨hcam, hrefs, -, -⟩ := h.receiving hr
  refine ⟨(CameraMove.updSource s hcam (f := fun x => x.repaired (repairRow c r s) r.expected n) (fun _ => rfl)
    fun hpos => absurd hrefs (Nat.pos_iff_ne_zero.1 hpos)).trans (.updPort c _ _), ?_⟩
  refine h.advance hr (s.repaired_state n) rfl (fun i => ?_) (fun i => ?_) ?_ ?_
  · rw [State.repaired, pick_upd]
    split <;> rfl
  · rw [State.repaired, pick_upd]
    split <;> rfl
  · rw [State.repaired_port]
    exact he
  · rw [State.repaired_port]
    exact hl

/-- Repairs past the limit: damage closes the reception. -/
theorem cameraStep_damaged (n : Nat) (h : CameraFits s c) (hr : (pick s.ports c).state = .receive r) :
    CameraStep c s (s.damaged c r n) := by
  obtain ⟨hcam, hrefs, -, -⟩ := h.receiving hr
  have hmove : CameraMove c s ((s.updSource r.slot fun x =>
      { x.repaired (repairRow c r s) r.expected n with receiving := false }).updPort c fun p => p.damaged n) :=
    (CameraMove.updSource s hcam
      (f := fun x => { x.repaired (repairRow c r s) r.expected n with receiving := false }) (fun _ => rfl)
      fun hpos => absurd hrefs (Nat.pos_iff_ne_zero.1 hpos)).trans (.updPort c _ _)
  obtain ⟨q, k, i, hd⟩ := s.damaged_eq (c := c) (r := r) n
  refine ⟨by rw [hd]; exact { hmove with }, h.closed hr (fun q hq => ?_) ?_ fun i hi => ?_⟩
  · rw [State.damaged_port] at hq
    cases hq
  · rw [State.damaged_sourceSlots, pick_upd_same]
  · rw [State.damaged_sourceSlots, pick_upd_other _ _ hi]

/-- A run of repairs that stays inside the frame. -/
theorem cameraStep_repairLines {n : Nat} (h : CameraFits s c) (hr : (pick s.ports c).state = .receive r)
    (he : r.expected + n ≤ (pick s.ports c).height) : CameraStep c s (repairLines c n s) := by
  by_cases hl : r.repairs + n ≤ (pick s.ports c).repairLimit
  · rw [repairLines_within hr hl]
    exact cameraStep_repaired h hr he hl
  · rw [repairLines_past hr (h.receiving hr).2.2.2 (not_le.1 hl)]
    exact cameraStep_damaged _ h hr

/-- A run of repairs leaves the configured height. -/
theorem repairLines_height {n : Nat} (h : CameraFits s c) (hr : (pick s.ports c).state = .receive r) :
    (pick (repairLines c n s).ports c).height = (pick s.ports c).height := by
  by_cases hl : r.repairs + n ≤ (pick s.ports c).repairLimit
  · rw [repairLines_within hr hl, State.repaired_port]
    rfl
  · rw [repairLines_past hr (h.receiving hr).2.2.2 (not_le.1 hl), State.damaged_port]
    rfl

/-- Camera counters. -/
theorem cameraStep_countCamera (h : CameraFits s c) (f : CameraCounters → CameraCounters) :
    CameraStep c s (s.countCamera c f) :=
  ⟨.updPort c s _, h.of_parts (slotParts_countCamera s c f)⟩

/-- Two steps of a camera, the second from the state the first leaves. -/
theorem CameraStep.trans {t u : State} (h : CameraStep c s t) (k : CameraFits t c → CameraStep c t u) :
    CameraStep c s u := ⟨h.1.trans (k h.2).1, (k h.2).2⟩

/-- A good line written. -/
theorem cameraStep_writeLine {l : LineFields} (h : CameraFits s c)
    (hl : l.number < (pick s.ports c).height) : CameraStep c s (writeLine c l s) := by
  cases hs : (pick s.ports c).state with
  | receive r =>
    obtain ⟨hcam, hrefs, -, hrep⟩ := h.receiving hs
    rw [writeLine_receive l hs]
    refine ⟨(CameraMove.updSource s hcam (f := fun x => { x with
      rows := putAt l.number (unpackPixels l.pixels) x.rows }) (fun _ => rfl)
      fun hpos => absurd hrefs (Nat.pos_iff_ne_zero.1 hpos)).trans (.updPort c _ _), ?_⟩
    refine h.advance hs (congrArg Port.state (pick_upd_same ..)) rfl (fun i => ?_) (fun i => ?_) ?_ ?_
    · rw [pick_upd]
      split <;> rfl
    · rw [pick_upd]
      split <;> rfl
    · rw [pick_upd_same]
      exact hl
    · rw [pick_upd_same]
      exact hrep
  | off => simpa [writeLine, hs] using ⟨CameraMove.refl c s, h⟩
  | wait => simpa [writeLine, hs] using ⟨CameraMove.refl c s, h⟩
  | discard => simpa [writeLine, hs] using ⟨CameraMove.refl c s, h⟩

/-- A Line in RECEIVE (R8). -/
theorem cameraStep_takeLine (l : LineFields) (h : CameraFits s c) (hr : (pick s.ports c).state = .receive r) :
    CameraStep c s (takeLine c r l s) := by
  by_cases hh : l.number < (pick s.ports c).height
  · by_cases he : r.expected ≤ l.number
    · by_cases hg : l.good (pick s.ports c).width = true
      · rw [takeLine_good hh he hg]
        refine (cameraStep_repairLines h hr (by omega)).trans fun ht => cameraStep_writeLine ht ?_
        rw [repairLines_height h hr]
        exact hh
      · rw [takeLine_bad hh he hg]
        exact (cameraStep_repairLines h hr (by omega)).trans fun ht => cameraStep_countCamera ht _
    · rw [takeLine_duplicate hh (not_le.1 he)]
      exact cameraStep_countCamera h _
  · rw [takeLine_beyond (not_lt.1 hh)]
    exact ⟨.refl c s, h⟩

/-! ### Frame End and Frame Start -/

/-- The queue after an offer: the jobs made name the offered slot. -/
theorem queuedNaming_offered (s : State) {job : Fin 16 → Job} {i : Fin 12} (hi : ∀ v, (job v).slot = i)
    (made skipped : List (Fin 16)) (j : Fin 12) :
    (s.offered job i made skipped).queuedNaming j = s.queuedNaming j + if j = i then made.length else 0 := by
  have hmade : (made.map job).countP (fun x => x.slot == j) = if j = i then made.length else 0 := by
    rw [List.countP_map]
    split
    · next e => exact List.countP_eq_length.2 fun v _ => by simp [hi, e]
    · next e => exact List.countP_eq_zero.2 fun v _ => by simpa [hi] using Ne.symm e
  rw [State.queuedNaming, State.offered, List.countP_append, hmade, State.queuedNaming]

/-- An offer of a frame: its slot gains a reference for each job made. -/
theorem cameraMove_offered {job : Fin 16 → Job} {i : Fin 12} (hi : ∀ v, (job v).slot = i) (hcam : cameraOf i = c)
    (made skipped : List (Fin 16)) : CameraMove c s (s.offered job i made skipped) :=
  { CameraMove.refl c s with
    slots := fun j hj => by
      have hne : j ≠ i := fun e => hj ((congrArg cameraOf e).trans hcam)
      simp [State.offered, pick_upd_other _ _ hne]
    refs := fun j => by
      rw [queuedNaming_offered s hi, State.offered, pick_upd]
      by_cases e : j = i
      · simp only [if_pos e]
        omega
      · simp only [if_neg e]
        omega
    rows := fun j hj => by
      rw [State.offered, pick_upd]
      split
      · exact ⟨Nat.add_pos_left hj _, rfl⟩
      · exact ⟨hj, rfl⟩ }

/-- A posting closes the reception. -/
theorem cameraStep_postFrame (h : CameraFits s c) (hr : (pick s.ports c).state = .receive r) :
    CameraStep c s (postFrame c r s) := by
  obtain ⟨hcam, -, -, -⟩ := h.receiving hr
  have hstate : (pick (postFrame c r s).ports c).state = .wait := postFrame_state
  rw [postFrame_eq] at hstate ⊢
  refine ⟨((CameraMove.updPort c s _).trans (cameraMove_offered (job := r.job c) (fun _ => rfl) hcam _ _)).trans
    (.stopReceiving _ hcam), h.closed hr (fun q hq => ?_) ?_ fun i hi => ?_⟩
  · cases hstate.symm.trans hq
  · simp [State.stopReceiving]
  · simp [State.stopReceiving, State.offered, pick_upd_other _ _ hi]

/-- A frame closed by a Frame End, or by the next Frame Start (R6, R11). -/
theorem cameraStep_closeFrame (sent : Nat) (h : CameraFits s c) (hr : (pick s.ports c).state = .receive r) :
    CameraStep c s (closeFrame c r sent s) := by
  obtain ⟨-, -, he, hrep⟩ := h.receiving hr
  have hcheck : ∀ u : State, CameraFits u c → CameraStep c u (u.checkSent c sent) := fun u hu => by
    rw [State.checkSent]
    split
    · exact ⟨.refl c u, hu⟩
    · exact cameraStep_countCamera hu _
  by_cases hl : r.repairs + ((pick s.ports c).height - r.expected) ≤ (pick s.ports c).repairLimit
  · rw [closeFrame_within sent hr rfl hl]
    refine ((cameraStep_repaired h hr (by omega) hl).trans (hcheck _)).trans fun ht => cameraStep_postFrame ht ?_
    rw [State.checkSent_port]
    exact s.repaired_state _
  · rw [(closeFrame_past sent hr rfl (by omega) (not_le.1 hl)).1]
    refine (hcheck s h).trans fun ht => cameraStep_repairLines (r := r) ht ?_ ?_
    · rw [State.checkSent_port]
      exact hr
    · rw [State.checkSent_port]
      exact (Nat.add_sub_of_le he).le

/-- A Frame Start outside RECEIVE (R5, R15). -/
theorem cameraStep_beginFrame (f : FrameStartFields) (h : CameraFits s c)
    (hs : ∀ q, (pick s.ports c).state ≠ .receive q) : CameraStep c s (beginFrame c f s) := by
  rcases beginFrame_cases c f s with ⟨k, e⟩ | ⟨kind, i, hi, e⟩
  · rw [e]
    refine ⟨.updPort c s _, h.of_parts (slotParts_updPort ?_)⟩
    simp [Port.intake, reception?_eq_none hs, reception?_eq_none]
  · rw [e]
    obtain ⟨k, rfl, hfree⟩ := exists_of_freeSlot hi
    have hcam : cameraOf (sourceSlot c k) = c := Fin.ext (by simp only [cameraOf, sourceSlot]; omega)
    refine ⟨(CameraMove.updSource s hcam (f := fun x => { x with receiving := true }) (fun _ => rfl)
      fun _ => rfl).trans (.updPort c _ _), h.begun hs (r := ⟨sourceSlot c k, f.header kind, 0, 0⟩) ?_ hcam ?_ ?_
      (fun j hj => ?_) rfl rfl⟩
    · simp
    · simpa using ((free_iff _).1 hfree).2
    · simp
    · simp [pick_upd_other _ _ hj]

end

/-! ### The camera rows -/

section
variable {c : Fin 4} {packet : List Byte} {s t : State}

/-- FRAME_START. -/
theorem exec_frameStart_carried (h : exec (.frameStart c packet) s = .next t) : SlotsCarried s t := by
  cases hp : parseFrameStart packet with
  | none =>
    cases (exec_frameStart_ignored (.inl hp)).symm.trans h
    exact .of_parts rfl
  | some f =>
    cases hs : (pick s.ports c).state with
    | off =>
      cases (exec_frameStart_ignored (.inr hs)).symm.trans h
      exact .of_parts rfl
    | wait =>
      cases (exec_frameStart_ready hp (.inl hs)).symm.trans h
      exact .of_cameraStep fun hf => cameraStep_beginFrame f hf fun q hq => nomatch hs.symm.trans hq
    | discard =>
      cases (exec_frameStart_ready hp (.inr hs)).symm.trans h
      exact .of_cameraStep fun hf => cameraStep_beginFrame f hf fun q hq => nomatch hs.symm.trans hq
    | receive r =>
      cases (exec_frameStart_receive hp hs).symm.trans h
      refine .of_cameraStep fun hf => (cameraStep_closeFrame _ hf hs).trans fun ht => cameraStep_beginFrame f ht ?_
      rcases closeFrame_state (pick s.ports c).height hs with hw | hw
      · exact fun q hq => nomatch hw.symm.trans hq
      · exact fun q hq => nomatch hw.symm.trans hq

/-- A port is in RECEIVE or not. -/
theorem receive_or_not (p : Port) : (∃ r, p.state = .receive r) ∨ ∀ r, p.state ≠ .receive r := by
  by_cases h : ∃ r, p.state = .receive r
  · exact .inl h
  · exact .inr fun r hr => h ⟨r, hr⟩

/-- LINE. -/
theorem exec_line_carried (h : exec (.line c packet) s = .next t) : SlotsCarried s t := by
  cases hp : parseLine packet with
  | none =>
    cases (exec_line_ignored (.inl hp)).symm.trans h
    exact .of_parts rfl
  | some l =>
    rcases receive_or_not (pick s.ports c) with ⟨r, hr⟩ | hr
    · cases (exec_line_receive hp hr).symm.trans h
      exact .of_cameraStep fun hf => cameraStep_takeLine l hf hr
    · cases (exec_line_ignored (.inr hr)).symm.trans h
      exact .of_parts rfl

/-- FRAME_END. -/
theorem exec_frameEnd_carried (h : exec (.frameEnd c packet) s = .next t) : SlotsCarried s t := by
  cases hp : parseFrameEnd packet with
  | none =>
    cases (exec_frameEnd_ignored (.inl hp)).symm.trans h
    exact .of_parts rfl
  | some sent =>
    rcases receive_or_not (pick s.ports c) with ⟨r, hr⟩ | hr
    · cases (exec_frameEnd_receive hp hr).symm.trans h
      exact .of_cameraStep fun hf => cameraStep_closeFrame sent hf hr
    · cases (exec_frameEnd_ignored (.inr hr)).symm.trans h
      exact .of_parts rfl

end

/-! ### The camera commands -/

/-- Set Camera writes a port that is OFF (R1). -/
theorem quiet_setCamera : Quiet setCameraRule := fun payload s => by
  simp only [setCameraRule]
  split
  · next c tracking _ _ =>
    split
    · split
      · rfl
      · next hoff =>
        have hs : (pick s.ports c).state = .off := not_not.1 fun h => hoff (.inl h)
        exact slotParts_updPort (by simp [Port.intake, Port.reception?, hs])
    · rfl
  · rfl

/-- Enabling a camera begins no reception (R2). -/
theorem slotParts_enableCamera (c : Fin 4) (s : State) : ((enableCamera c s).left s).slotParts = s.slotParts := by
  unfold enableCamera
  split
  · next hs =>
    split
    · rfl
    · exact slotParts_updPort (by simp [Port.intake, Port.reception?, hs])
  · rfl
  · rfl
  · rfl

/-- Disabling a camera closes its reception (R2, R20). -/
theorem disableCamera_carried (c : Fin 4) (s : State) : SlotsCarried s (disableCamera c s) := by
  unfold disableCamera
  split
  · exact .of_parts rfl
  · next hs => exact .of_parts (slotParts_updPort (by simp [Port.intake, Port.reception?, hs]))
  · next hs => exact .of_parts (slotParts_updPort (by simp [Port.intake, Port.reception?, hs]))
  · next r hr =>
    refine .of_cameraStep (c := c) fun h => ⟨(CameraMove.stopReceiving s (h.receiving hr).1).trans
      (.updPort c _ _), h.closed hr (fun q hq => ?_) ?_ fun i hi => ?_⟩
    · simp [State.stopReceiving] at hq
    · simp [State.stopReceiving]
    · simp [State.stopReceiving, pick_upd_other _ _ hi]

/-- Camera Enable (R2). -/
theorem cameraEnable_carried (payload : List Byte) (s : State) :
    SlotsCarried s ((cameraEnableRule payload s).left s) := by
  unfold cameraEnableRule
  split
  · exact .of_parts (slotParts_enableCamera _ s)
  · exact disableCamera_carried _ s
  · exact .of_parts rfl

end Sys2Proof.Machine
end

section
/-! PROOFS. The Conditioning Queue and the engine keep the slots sound (spec/05, spec/09 R91 and R136, spec/01 R14). -/

namespace Sys2Proof.Machine

/-! ### What an event of the engine may do -/

/-- Every line of every source slot stands, and every held output slot. -/
structure EngineStand (s t : State) : Prop where
  rows : ∀ i, (pick t.sourceSlots i).rows = (pick s.sourceSlots i).rows
  held : ∀ x, (pick s.outputSlots x).held = true → pick t.outputSlots x = pick s.outputSlots x

/-- An event of the engine: it keeps the slots sound and writes no source line and no held slot. -/
def EngineCarried (s t : State) : Prop := SlotsSound s → SlotsSound t ∧ EngineStand s t

section
variable {s t u : State}

/-- Two events of the engine, one after the other: a held slot stays held. -/
theorem EngineCarried.trans (h : EngineCarried s t) (k : EngineCarried t u) : EngineCarried s u := fun hs => by
  obtain ⟨ht, hst⟩ := h hs
  obtain ⟨hu, htu⟩ := k ht
  exact ⟨hu, fun i => (htu.rows i).trans (hst.rows i),
    fun x hx => (htu.held x (hst.held x hx ▸ hx)).trans (hst.held x hx)⟩

/-- An event of the engine carries the slots. -/
theorem EngineCarried.slots (h : EngineCarried s t) : SlotsCarried s t := fun hs => by
  obtain ⟨ht, hst⟩ := h hs
  exact ⟨ht, fun i _ => hst.rows i, fun x hx => by rw [hst.held x hx]; exact ⟨rfl, rfl⟩⟩

/-- An event is judged by the parts after it. -/
theorem EngineCarried.congr {t' : State} (h : EngineCarried s t) (ht : t'.slotParts = t.slotParts) :
    EngineCarried s t' := fun hs => by
  obtain ⟨hsound, hrows, hheld⟩ := h hs
  have hsrc : t'.sourceSlots = t.sourceSlots := congrArg SlotParts.sources ht
  have hout : t'.outputSlots = t.outputSlots := congrArg SlotParts.outputs ht
  exact ⟨hsound.congr ht, hsrc ▸ hrows, hout ▸ hheld⟩

/-- An event that leaves the parts. -/
theorem EngineCarried.of_parts (h : t.slotParts = s.slotParts) : EngineCarried s t :=
  EngineCarried.congr (fun hs => ⟨hs, fun _ => rfl, fun _ _ => rfl⟩) h

/-- The slots are sound after an event that leaves the intake, drops references at most, keeps the count, holds and
releases no output slot, and writes none that is held. -/
theorem SlotsSound.of_engine (h : SlotsSound s) (hports : t.ports = s.ports)
    (hsrc : ∀ i, (pick t.sourceSlots i).receiving = (pick s.sourceSlots i).receiving
      ∧ (pick t.sourceSlots i).refs ≤ (pick s.sourceSlots i).refs)
    (hcount : ReferencesCounted t) (hheld : ∀ x, (pick t.outputSlots x).held = (pick s.outputSlots x).held)
    (hsend : t.transmission = s.transmission) (hwrite : ∀ f ∈ t.flight, (pick s.outputSlots f.slot).held = false) :
    SlotsSound t where
  counted := hcount
  intake := (intakeSound_iff t).2 fun c => ((intakeSound_iff s).1 h.intake c).congr (by rw [hports])
    (fun i _ => (hsrc i).1) fun i _ => (hsrc i).2
  holds := ⟨fun x => by rw [hheld, hsend]; exact h.holds.held x, fun f hf => (hheld f.slot).trans (hwrite f hf)⟩

/-- A job dropped from the queue or from flight, its source reference released (R14). -/
theorem carried_release {jobs : List Job} {flight : Option Flight} {i : Fin 12}
    (hn : ∀ j, s.jobsNaming j = State.jobsNaming { s with jobs := jobs, flight := flight } j + if j = i then 1 else 0)
    (hf : ∀ f ∈ flight, f ∈ s.flight) :
    EngineCarried s (State.releaseSource { s with jobs := jobs, flight := flight } i) := fun hs => by
  refine ⟨hs.of_engine rfl (fun j => ?_) (fun j => ?_) (fun _ => rfl) rfl fun f h => hs.holds.writeSlot f (hf f h),
    fun j => ?_, fun _ _ => rfl⟩
  · rw [State.releaseSource_eq, State.updSource_sourceSlots, pick_upd]
    split
    · exact ⟨rfl, Nat.sub_le _ _⟩
    · exact ⟨rfl, le_refl _⟩
  · have hcount := (hs.counted j).trans (hn j)
    rw [State.releaseSource_eq, State.updSource_sourceSlots, pick_upd]
    split
    · next e =>
      rw [if_pos e] at hcount
      exact Nat.sub_eq_of_eq_add hcount
    · next e =>
      rw [if_neg e] at hcount
      exact hcount
  · rw [State.releaseSource_eq, State.updSource_sourceSlots, pick_upd]
    split <;> rfl

end

/-! ### Removing jobs (R70, R95) -/

/-- Jobs of a list that name a slot, by whether they go. -/
theorem countP_filter_add (jobs : List Job) (gone : Job → Bool) (i : Fin 12) :
    (jobs.filter fun j => !gone j).countP (fun j => j.slot == i) + (jobs.filter gone).countP (fun j => j.slot == i)
      = jobs.countP fun j => j.slot == i := by
  induction jobs with
  | nil => rfl
  | cons j jobs ih =>
    cases hg : gone j <;> simp [hg, List.countP_cons] <;> omega

/-- Queued jobs removed, their references released. -/
theorem removeJobs_carried (s : State) (gone : Job → Bool) : EngineCarried s (s.removeJobs gone) := fun hs => by
  rw [removeJobs_eq]
  refine ⟨hs.of_engine rfl (fun i => ?_) (fun i => ?_) (fun _ => rfl) rfl hs.holds.writeSlot, fun i => ?_,
    fun _ _ => rfl⟩
  · rw [pick_tabulate]
    exact ⟨rfl, Nat.sub_le _ _⟩
  · have hcount := hs.counted i
    have hsplit := countP_filter_add s.jobs gone i
    rw [pick_tabulate]
    simp only [State.jobsNaming] at hcount ⊢
    omega
  · rw [pick_tabulate]

/-- View Disable removes jobs and changes its view (R70). -/
theorem disableView_carried (v : Fin 16) (s : State) : EngineCarried s (disableView v s) := by
  refine (removeJobs_carried s fun j => j.view == v).congr ?_
  unfold disableView
  simp only
  split <;> rfl

/-- View Disable (R70). -/
theorem viewDisable_carried (payload : List Byte) (s : State) :
    SlotsCarried s ((viewDisableRule payload s).left s) := by
  unfold viewDisableRule
  split
  · exact .of_parts rfl
  · exact (disableView_carried _ s).slots

/-! ### The start of a job (R82 to R90) -/

/-- The parts after a source reference is released. -/
def SlotParts.release (p : SlotParts) (i : Fin 12) : SlotParts :=
  { p with sources := upd p.sources i fun x => { x with refs := x.refs - 1 } }

/-- The parts after a job is in flight: its write slot's generation has advanced (R90). -/
def SlotParts.begin (p : SlotParts) (f : Flight) : SlotParts :=
  { p with
    outputs := upd p.outputs f.slot fun x => { x with generation := x.generation + 1 }
    flight := some f }

/-- A job skipped for a held slot (R84). -/
theorem slotParts_skipJob (j : Job) (n : RecordNumber) (s : State) :
    (skipJob j n s).slotParts = s.slotParts.release j.slot := by
  rw [skipJob, slotParts_settle]
  rfl

/-- A job that faults (R89). -/
theorem slotParts_faultJob (j : Job) (n : RecordNumber) (x : TableFailure) (s : State) :
    (faultJob j n x s).slotParts = s.slotParts.release j.slot := by
  rw [faultJob, slotParts_settle]
  exact congrArg (SlotParts.release · j.slot) (slotParts_raise _ _)

/-- The head job's record (R83, R140). -/
theorem slotParts_createRecord (j : Job) (s : State) : (createRecord j s).slotParts = s.slotParts := by
  simp only [createRecord]
  split
  · rw [slotParts_raise]
    rfl
  · rfl

/-- The stages of a job begin with the job in flight on its slot (R90). -/
theorem slotParts_beginStages (j : Job) (n : RecordNumber) (x : Fin 52) (l : Latched) (t : TableLatch) (m : Mesh)
    (s : State) :
    ∃ f : Flight, f.job = j ∧ f.slot = x ∧ (beginStages j n x l t m s).slotParts = s.slotParts.begin f :=
  ⟨(beginStages j n x l t m s).flight.get rfl, rfl, rfl, rfl⟩

/-- A job past the held test faults, or is in flight on its slot (R85 to R90). -/
theorem slotParts_latchJob (j : Job) (n : RecordNumber) (x : Fin 52) (s : State) :
    (latchJob j n x s).slotParts = s.slotParts.release j.slot
    ∨ ∃ f : Flight, f.job = j ∧ f.slot = x ∧ (latchJob j n x s).slotParts = s.slotParts.begin f := by
  simp only [latchJob, markAccessed_eq]
  split
  · exact .inl (slotParts_faultJob ..)
  · split
    · exact .inr (slotParts_beginStages ..)
    · exact .inl (slotParts_faultJob ..)

/-- What the start of a job does to the slots: its source is released, or it is in flight on a slot that was not held
(05 5.3). -/
theorem slotParts_startJob {j : Job} {s t : State} (h : startJob j s = .ok t) :
    t.slotParts = s.slotParts.release j.slot
    ∨ ∃ f : Flight, f.job = j ∧ (pick s.outputSlots f.slot).held = false ∧ t.slotParts = s.slotParts.begin f := by
  have hrec := slotParts_createRecord j s
  have hout : (createRecord j s).outputSlots = s.outputSlots := congrArg SlotParts.outputs hrec
  simp only [startJob] at h
  split at h
  · cases h
  · next x _ =>
    split at h
    · cases h
      exact .inl (by rw [slotParts_skipJob, hrec])
    · next hheld =>
      cases h
      rcases slotParts_latchJob j s.nextRecord x (createRecord j s) with e | ⟨f, hj, rfl, e⟩
      · exact .inl (by rw [e, hrec])
      · exact .inr ⟨f, hj, by rw [← hout]; exact Bool.eq_false_of_not_eq_true hheld, by rw [e, hrec]⟩

/-- The head job taken and in flight on a slot that is not held. -/
theorem carried_begin {s : State} {rest : List Job} {f : Flight} (hidle : s.flight = none)
    (hjobs : s.jobs = f.job :: rest) (hheld : (pick s.outputSlots f.slot).held = false) :
    EngineCarried s { s with
      jobs := rest
      outputSlots := upd s.outputSlots f.slot fun x => { x with generation := x.generation + 1 }
      flight := some f } := fun hs => by
  refine ⟨hs.of_engine rfl (fun i => ⟨rfl, le_refl _⟩) (fun i => ?_) (fun x => ?_) rfl (fun g hg => ?_), fun _ => rfl,
    fun x hx => ?_⟩
  · have hcount := hs.counted i
    simp only [State.jobsNaming, hidle, hjobs, List.countP_cons, Option.toList_none, Option.toList_some,
      List.countP_nil] at hcount ⊢
    omega
  · rw [pick_upd]
    split <;> rfl
  · cases hg
    exact hheld
  · refine pick_upd_other _ _ ?_
    rintro rfl
    cases hheld.symm.trans hx

/-- The engine's start of the head job (R82). -/
theorem startHead_carried {s t : State} (h : startHead s = .ok t) : EngineCarried s t := by
  unfold startHead at h
  split at h
  · next j rest hidle hjobs =>
    rcases slotParts_startJob h with e | ⟨f, rfl, hheld, e⟩
    · refine (carried_release (i := j.slot) (jobs := rest) (flight := s.flight) (fun i => ?_) fun f hf => hf).congr e
      simp only [State.jobsNaming, hjobs, List.countP_cons, beq_iff_eq]
      simp only [eq_comm (a := i)]
      omega
    · exact (carried_begin hidle hjobs hheld).congr e
  · cases h
    exact .of_parts rfl
  · cases h
    exact .of_parts rfl

/-- An engine event that answers a next state. -/
theorem engineOutcome_next {x : Except Fault State} {t : State} (h : engineOutcome x = .next t) : x = .ok t := by
  cases x with
  | ok s => cases h; rfl
  | error f => cases h

/-! ### Output pixels and the end of a job (R92, R94, R95) -/

/-- An output pixel goes to the write slot, which is not held (R91, R92). -/
theorem producePixel_carried {s : State} {f : Flight} (hf : s.flight = some f) :
    EngineCarried s (producePixel f s) := fun hs => by
  have hfree := hs.holds.writeSlot f hf
  refine ⟨hs.of_engine rfl (fun i => ⟨rfl, le_refl _⟩) (fun i => ?_) (fun x => ?_) rfl (fun g hg => ?_), fun _ => rfl,
    fun x hx => ?_⟩
  · have hcount := hs.counted i
    simp only [State.jobsNaming, hf] at hcount
    exact hcount
  · refine (congrArg OutputSlot.held (pick_upd ..)).trans ?_
    split <;> rfl
  · cases hg
    exact hfree
  · refine pick_upd_other _ _ ?_
    rintro rfl
    cases hfree.symm.trans hx

/-- The job in flight gone, its source released. -/
theorem carried_landed {s t : State} {f : Flight} (hf : s.flight = some f)
    (ht : t.slotParts = (State.releaseSource { s with flight := none } f.job.slot).slotParts) : EngineCarried s t := by
  refine EngineCarried.congr (carried_release (i := f.job.slot) (jobs := s.jobs) (flight := none) (fun i => ?_)
    fun g hg => absurd hg (Option.not_mem_none g)) ht
  simp only [State.jobsNaming, hf, Option.toList_some, Option.toList_none, List.countP_cons, List.countP_nil,
    beq_iff_eq, eq_comm (a := i)]
  omega

/-- The buffer's advance (R137, R138). -/
@[simp] theorem slotParts_advanceBuffer (v : Fin 16) (n : RecordNumber) (degraded : Bool) (s : State) :
    (advanceBuffer v n degraded s).slotParts = s.slotParts := by
  simp only [advanceBuffer]
  split
  · rfl
  · split
    · rw [slotParts_raise]
      rfl
    · rfl

/-- Forwarding selection (R146). -/
@[simp] theorem slotParts_selectRecord (f : Flight) (mark : SlotMark) (s : State) :
    (selectRecord f mark s).slotParts = s.slotParts := by
  simp only [selectRecord]
  split
  · rw [slotParts_offer]
    rfl
  · rfl

/-- The end of a job (R94). -/
theorem endJob_carried {s : State} {f : Flight} (hf : s.flight = some f) : EngineCarried s (endJob f s) := by
  refine carried_landed hf ?_
  rw [endJob, slotParts_settle]
  exact (slotParts_selectRecord ..).trans (slotParts_advanceBuffer ..)

/-- Views settled one after another. -/
@[simp] theorem slotParts_foldl_settle (vs : List (Fin 16)) (s : State) :
    (vs.foldl State.settle s).slotParts = s.slotParts := by
  induction vs generalizing s with
  | nil => rfl
  | cons v vs ih => rw [List.foldl_cons, ih, slotParts_settle]

/-- The job in flight stopped (R95). -/
theorem abortFlight_carried (s : State) : EngineCarried s (abortFlight s) := by
  unfold abortFlight
  split
  · next f hf => exact carried_landed hf rfl
  · exact .of_parts rfl

/-- An Engine Abort before the next start (R95). -/
theorem abortEngine_carried (flush : Bool) (s : State) : EngineCarried s (abortEngine flush s) := by
  refine EngineCarried.congr (t := if flush then (abortFlight s).removeJobs fun _ => true else abortFlight s) ?_
    (slotParts_foldl_settle ..)
  split
  · exact (abortFlight_carried s).trans (removeJobs_carried _ _)
  · exact abortFlight_carried s

/-- Engine Abort (R95). -/
theorem engineAbort_carried (payload : List Byte) (s : State) :
    SlotsCarried s ((engineAbortRule payload s).left s) := by
  simp only [engineAbortRule]
  split
  · exact .of_parts rfl
  · next flush _ =>
    split
    · exact .of_parts rfl
    · next t ht => exact ((abortEngine_carried flush s).trans (startHead_carried ht)).slots

section
variable {s t : State}

/-- JOB_START. -/
theorem exec_jobStart_carried (h : exec .jobStart s = .next t) : SlotsCarried s t :=
  (startHead_carried (engineOutcome_next h)).slots

/-- OUTPUT_PIXEL. -/
theorem exec_outputPixel_carried (h : exec .outputPixel s = .next t) : SlotsCarried s t := by
  simp only [exec, execOutputPixel] at h
  split at h
  · cases h
    exact .of_parts rfl
  · next f hf =>
    split at h
    · cases h
      exact (producePixel_carried hf).slots
    · cases h
      exact .of_parts rfl

/-- JOB_END. -/
theorem exec_jobEnd_carried (h : exec .jobEnd s = .next t) : SlotsCarried s t := by
  simp only [exec, execJobEnd] at h
  split at h
  · cases h
    exact .of_parts rfl
  · next f hf =>
    split at h
    · cases h
      exact .of_parts rfl
    · exact ((endJob_carried hf).trans (startHead_carried (engineOutcome_next h))).slots

end

end Sys2Proof.Machine
end

section
/-! PROOFS. The Uplink Arbiter, the resets and the other rows keep the slots sound; every step does (spec/01 R14 and
R15, spec/09 R91 and R136, spec/10 R154 to R156). -/

namespace Sys2Proof.Machine

/-! ### The Uplink Arbiter (R154 to R156) -/

section
variable {s t : State}

/-- An event of the arbiter: it holds the slot of the new current transmission and no other, and writes no slot. -/
theorem SlotsCarried.of_arbiter (hports : t.ports = s.ports) (hsrc : t.sourceSlots = s.sourceSlots)
    (hjobs : t.jobs = s.jobs) (hflight : t.flight = s.flight)
    (hout : ∀ x, (pick t.outputSlots x).cells = (pick s.outputSlots x).cells
      ∧ (pick t.outputSlots x).generation = (pick s.outputSlots x).generation)
    (hholds : HoldsSound s → HoldsSound t) : SlotsCarried s t := fun hs => by
  refine ⟨⟨fun i => ?_, (intakeSound_iff t).2 fun c => ((intakeSound_iff s).1 hs.intake c).congr ?_
    (fun i _ => by rw [hsrc]) fun i _ => by rw [hsrc], hholds hs.holds⟩, fun i _ => by rw [hsrc], fun x _ => hout x⟩
  · rw [State.jobsNaming, hsrc, hjobs, hflight]
    exact hs.counted i
  · rw [hports]

/-- A slot's hold changes neither its cells nor its generation. -/
theorem hold_stands (v : Vector OutputSlot 52) (x y : Fin 52) (held : Bool) :
    let w := upd v x fun z => { z with held := held }
    (pick w y).cells = (pick v y).cells ∧ (pick w y).generation = (pick v y).generation := by
  simp only [pick_upd]
  split <;> exact ⟨rfl, rfl⟩

/-- The end of the current transmission releases its slot (R136, R156). -/
theorem sendEnd_carried {x : Transmission} (truncated : Bool) (hx : s.transmission = some x) :
    SlotsCarried s (sendEnd x truncated s) := by
  have hcore : SlotsCarried s { s with
      outputSlots := upd s.outputSlots x.entry.mark.slot fun z => { z with held := false }
      transmission := none } := by
    refine .of_arbiter rfl rfl rfl rfl (fun y => hold_stands ..) fun hs => ⟨fun y => ?_, fun f hf => ?_⟩
    · rw [pick_upd]
      split
      · simp
      · next hy => simpa [hx, Ne.symm hy] using hs.held y
    · rw [pick_upd]
      split
      · rfl
      · exact hs.writeSlot f hf
  refine hcore.congr rfl ?_
  simp only [sendEnd]
  split <;> rfl

/-- A line packet keeps the transmission's entry (R156). -/
theorem slotParts_sendLine {x : Transmission} (hx : s.transmission = some x) :
    (sendLine x s).slotParts = s.slotParts := by
  simp [sendLine, State.slotParts, hx]

/-- A new transmission holds its slot, which is not the write slot (R136, R155). -/
theorem beginTransmission_carried {e : ForwardEntry} (hn : s.transmission = none) (hstale : s.entryStale e = false) :
    SlotsCarried s (beginTransmission e s) := by
  have hfree : ∀ f ∈ s.flight, f.slot ≠ e.mark.slot := by
    intro f hf hslot
    simp [State.entryStale, State.markStale, State.writeSlot, Option.mem_def.1 hf, hslot] at hstale
  have hcore : SlotsCarried s { s with
      outputSlots := upd s.outputSlots e.mark.slot fun z => { z with held := true }
      transmission := some ⟨e, 0, 0, .whole⟩ } := by
    refine .of_arbiter rfl rfl rfl rfl (fun y => hold_stands ..) fun hs => ⟨fun y => ?_, fun f hf => ?_⟩
    · rw [pick_upd]
      split
      · next hy => simp [hy]
      · next hy => simpa [hn, Ne.symm hy] using hs.held y
    · rw [pick_upd_other _ _ (hfree f hf)]
      exact hs.writeSlot f hf
  refine hcore.congr rfl ?_
  simp only [beginTransmission]
  split <;> rfl

/-- Stale entries counted one after another: views' counters alone. -/
theorem foldl_countStale (es : List ForwardEntry) (s : State) :
    ∃ views, es.foldl countStale s = { s with views := views } := by
  induction es generalizing s with
  | nil => exact ⟨s.views, rfl⟩
  | cons e es ih =>
    obtain ⟨views, h⟩ := ih (countStale s e)
    exact ⟨views, by rw [List.foldl_cons, h]; rfl⟩

/-- A new transmission from the Forward Queue begins with an entry that is not stale (R155). -/
theorem startTransmission_carried (hn : s.transmission = none) : SlotsCarried s (startTransmission s) := by
  obtain ⟨views, ht⟩ := foldl_countStale (s.forwardQueue.takeWhile s.entryStale) s
  simp only [startTransmission, ht]
  split
  · exact .of_parts rfl
  · next e rest hq =>
    have hne : s.forwardQueue.dropWhile s.entryStale ≠ [] := by simp [hq]
    have hstale : s.entryStale e = false := by
      have := List.head_dropWhile_not s.entryStale hne
      simpa [hq] using this
    exact (beginTransmission_carried (s := { s with views := views, forwardQueue := rest }) hn hstale).congr rfl rfl

/-- The fourth and fifth places of the arbiter's order (R154). -/
theorem sendImage_carried (s : State) : SlotsCarried s (sendImage s) := by
  unfold sendImage
  split
  · next x hx =>
    split
    · exact sendEnd_carried true hx
    · split
      · exact .of_parts rfl
      · split
        · exact .of_parts (slotParts_sendLine hx)
        · exact sendEnd_carried false hx
  · next hn =>
    split
    · exact .of_parts rfl
    · exact startTransmission_carried hn

/-- UPLINK_PORT_READY. -/
theorem arbitrate_carried (s : State) : SlotsCarried s (arbitrate s) := by
  unfold arbitrate
  split
  · exact .of_parts rfl
  · split
    · exact .of_parts rfl
    · split
      · exact .of_parts rfl
      · exact sendImage_carried s

end

/-! ### Resets -/

/-- The abort of the record in flight leaves the output slots. -/
theorem abortRecord_outputSlots (s : State) : (abortRecord s).outputSlots = s.outputSlots := by
  unfold abortRecord
  split <;> rfl

/-- Soft Reset leaves no reception, no job and no reference, and the current transmission keeps its hold (R20, R136,
R159). -/
theorem softReset_carried (s : State) : SlotsCarried s (softReset s) := fun hs => by
  have hport : ∀ c, (pick (softReset s).ports c).reception? = none := fun c =>
    congrArg Port.reception? (pick_updAll s.ports Port.softReset c)
  have hslot : ∀ i, pick (softReset s).sourceSlots i = (pick s.sourceSlots i).softReset := fun i =>
    pick_updAll s.sourceSlots SourceSlot.softReset i
  have hout : (softReset s).outputSlots = s.outputSlots := abortRecord_outputSlots s
  refine ⟨⟨fun i => ?_, (intakeSound_iff _).2 fun c => ⟨fun i _ => ?_, fun r hr => ?_⟩, ⟨fun x => ?_, ?_⟩⟩,
    fun i _ => ?_, fun x _ => ?_⟩
  · rw [hslot]
    rfl
  · simp [hslot, hport, SourceSlot.softReset]
  · rw [hport] at hr
    cases hr
  · rw [hout, hs.holds.held x]
    simp [softReset]
  · exact fun f hf => absurd hf (Option.not_mem_none f)
  · rw [hslot]
    rfl
  · rw [hout]
    exact ⟨rfl, rfl⟩

/-- The slots are sound after power-on. -/
theorem slotsSound_reset : SlotsSound State.reset := ⟨referencesCounted_reset, intakeSound_reset, holdsSound_reset⟩

/-! ### The rows outside the interpreter (R160 to R163, R168, R169) -/

/-- A packet buffered, or lost at a full buffer. -/
@[simp] theorem slotParts_bufferPacket (p : Packet) (s : State) : (bufferPacket p s).slotParts = s.slotParts := by
  unfold bufferPacket
  split <;> rfl

/-- A packet dispatched. -/
theorem slotParts_dispatchPacket (i : Inbound) (bytes : List Byte) (s : State) :
    (dispatchPacket i bytes s).slotParts = s.slotParts := by
  unfold dispatchPacket
  split
  · exact slotParts_bufferPacket _ _
  · split
    · exact slotParts_bufferPacket _ _
    · rfl

section
variable {s t : State}

/-- DOWNLINK_PACKET. -/
theorem exec_downlinkPacket_parts {packet : List Byte} (h : exec (.downlinkPacket packet) s = .next t) :
    t.slotParts = s.slotParts := by
  simp only [exec, execDownlinkPacket] at h
  split at h
  · cases h
    rfl
  · cases h
    exact slotParts_dispatchPacket _ _ _

/-- UNKNOWN_COMMAND. -/
theorem exec_unknownCommand_parts (h : exec .unknownCommand s = .next t) : t.slotParts = s.slotParts := by
  simp only [exec, execUnknownCommand] at h
  split at h
  · cases h
    rfl
  · split at h <;> cases h <;> rfl

/-- BROADCAST_IGNORED. -/
theorem exec_broadcastIgnored_parts (h : exec .broadcastIgnored s = .next t) : t.slotParts = s.slotParts := by
  simp only [exec, execBroadcastIgnored] at h
  split at h
  · cases h
    rfl
  · split at h <;> cases h <;> rfl

/-- STARTUP_SWEEP_END. -/
theorem exec_startupSweepEnd_parts (h : exec .startupSweepEnd s = .next t) : t.slotParts = s.slotParts := by
  cases h
  split <;> rfl

/-- RELAY_BYTE. -/
theorem exec_relayByte_parts {b : Byte} (h : exec (.relayByte b) s = .next t) : t.slotParts = s.slotParts := by
  cases h
  split <;> rfl

/-- RELAY_IDLE_TIMEOUT. -/
theorem exec_relayIdleTimeout_parts (h : exec .relayIdleTimeout s = .next t) : t.slotParts = s.slotParts := by
  cases h
  split <;> rfl

/-! ### Every row -/

/-- Every row but POWER_ON_RESET carries the slots. -/
theorem exec_carried {i : Instr} (hi : ∀ strap, i ≠ .powerOnReset strap) (h : exec i s = .next t) :
    SlotsCarried s t := by
  cases i with
  | powerOnReset strap => exact absurd rfl (hi strap)
  | startupSweepEnd => exact .of_parts (exec_startupSweepEnd_parts h)
  | frameStart c packet => exact exec_frameStart_carried h
  | line c packet => exact exec_line_carried h
  | frameEnd c packet => exact exec_frameEnd_carried h
  | cameraPacketIgnored c packet =>
    cases h
    exact .of_parts rfl
  | downlinkPacket packet => exact .of_parts (exec_downlinkPacket_parts h)
  | unknownCommand => exact .of_parts (exec_unknownCommand_parts h)
  | broadcastIgnored => exact .of_parts (exec_broadcastIgnored_parts h)
  | identify => exact quiet_identify.carried h
  | getStatus => exact quiet_getStatus.carried h
  | clearStatus => exact quiet_clearStatus.carried h
  | readCounters => exact quiet_readCounters.carried h
  | setNoticeMask => exact quiet_setNoticeMask.carried h
  | softReset =>
    exact runBroadcastable_carried (rule := softResetRule) (fun _ => softReset_carried) (fun _ => softReset_carried) h
  | setCamera => exact quiet_setCamera.carried h
  | cameraEnable => exact runCommand_carried cameraEnable_carried h
  | setBlackLevel => exact quiet_setBlackLevel.carried h
  | writeDescriptor => exact quiet_writeDescriptor.carried h
  | readDescriptor => exact quiet_readDescriptor.carried h
  | clearAccessedDescriptor => exact quiet_clearAccessed.carried h
  | lockDescriptor => exact (quiet_lock lockNext).carried h
  | unlockDescriptor => exact (quiet_lock unlockNext).carried h
  | lockDownDescriptor => exact (quiet_lock lockDownNext).carried h
  | setProtectionWindow => exact quiet_setWindow.carried h
  | protectionLock => exact quiet_protectionLock.carried h
  | loadOpen => exact quiet_loadOpen.carried h
  | loadData => exact quiet_loadData.carried h
  | loadCommit => exact quiet_loadCommit.carried h
  | loadCancel => exact quiet_loadCancel.carried h
  | streamOpen => exact quiet_streamOpen.carried h
  | streamData => exact quiet_streamData.carried h
  | streamCancel => exact quiet_streamCancel.carried h
  | readTable => exact quiet_readTable.carried h
  | writeView => exact quiet_writeView.carried h
  | readView => exact quiet_readView.carried h
  | viewActivate => exact quiet_viewActivate.carried h
  | viewHold => exact quiet_viewHold.carried h
  | viewDisable => exact runCommand_carried viewDisable_carried h
  | engineAbort => exact runCommand_carried engineAbort_carried h
  | setTimeTag =>
    exact runBroadcastable_carried (fun payload s => .of_parts (quiet_setTimeTag payload s))
      (fun payload s => .of_parts (slotParts_setTimeTag payload s)) h
  | readRecords => exact quiet_readRecords.carried h
  | recallFrame => exact quiet_recallFrame.carried h
  | recallLatest => exact quiet_recallLatest.carried h
  | uplinkPause => exact quiet_uplinkPause.carried h
  | uplinkResume => exact quiet_uplinkResume.carried h
  | uplinkFlush => exact quiet_uplinkFlush.carried h
  | jobStart => exact exec_jobStart_carried h
  | outputPixel => exact exec_outputPixel_carried h
  | jobEnd => exact exec_jobEnd_carried h
  | timeTagTick =>
    cases h
    exact .of_parts rfl
  | relayByte b => exact .of_parts (exec_relayByte_parts h)
  | relayIdleTimeout => exact .of_parts (exec_relayIdleTimeout_parts h)
  | uplinkPortReady =>
    cases h
    exact arbitrate_carried s

/-- A step that is no power-on reset carries the slots. -/
theorem step_carried (hp : ∀ strap rest, s.pending ≠ .powerOnReset strap :: rest) (h : step s = .next t) :
    SlotsCarried s t := by
  cases hq : s.pending with
  | nil =>
    simp only [step, hq] at h
    cases h
    exact .of_parts rfl
  | cons i rest =>
    rw [step_cons hq] at h
    exact (exec_carried (fun strap e => hp strap rest (e ▸ hq)) h).congr rfl rfl

/-- A power-on reset leaves the slots sound, whatever they were. -/
theorem step_powerOnReset_sound {strap : Fin 15} {rest : List Instr} (hq : s.pending = .powerOnReset strap :: rest)
    (h : step s = .next t) : SlotsSound t := by
  rw [step_cons hq] at h
  cases h
  exact slotsSound_reset.congr rfl

end

/-- Settles O57, row by row: camera rows by the one camera they touch, engine rows by the job they move, the arbiter by
the hold it sets or releases, and every other row leaves what the invariants read. -/
theorem slotsKept : Obligations.SlotsKept := by
  intro s t hcount hintake hholds h
  by_cases hp : ∃ strap rest, s.pending = .powerOnReset strap :: rest
  · obtain ⟨strap, rest, hq⟩ := hp
    obtain ⟨hc, hi, hh⟩ := step_powerOnReset_sound hq h
    exact ⟨hc, hi, hh, fun hno => absurd hq (hno strap rest)⟩
  · have hno : ∀ strap rest, s.pending ≠ .powerOnReset strap :: rest := fun strap rest hq => hp ⟨strap, rest, hq⟩
    obtain ⟨⟨hc, hi, hh⟩, hrows, hheld⟩ := step_carried hno h ⟨hcount, hintake, hholds⟩
    exact ⟨hc, hi, hh, fun _ => ⟨hrows, hheld⟩⟩

end Sys2Proof.Machine
end

section
/-! PROOFS. The protected set of a window, and the targets that touch it (spec/02, R37). -/

namespace Sys2Proof.Machine

/-! ### The protected set (R37) -/

/-- A protected word lies in the sized range, or outside it with the complement set. -/
theorem protects_iff (w : ProtectionWindow) (a : Nat) : w.protects a = true ↔
    a < 131072 ∧ ((w.sized.first ≤ a ∧ a < w.sized.first + w.sized.count) ↔ w.complement = false) := by
  rw [ProtectionWindow.protects, Bool.and_eq_true, decide_eq_true_eq, bne_iff_ne]
  refine and_congr_right fun _ => ?_
  cases w.complement <;> simp

/-- A target inside the store touches the window exactly when one of its words is protected. -/
theorem touches_iff (w : ProtectionWindow) {t : Span} (ht : t.first + t.count ≤ 131072) :
    w.touches t = true ↔ ∃ a, t.first ≤ a ∧ a < t.first + t.count ∧ w.protects a = true := by
  simp only [protects_iff]
  cases hc : w.complement with
  | false =>
    simp only [ProtectionWindow.touches, hc, Bool.false_eq_true, if_false, overlaps_iff, iff_true]
    constructor
    · rintro ⟨a, hw1, hw2, ht1, ht2⟩
      exact ⟨a, ht1, ht2, by omega, hw1, hw2⟩
    · rintro ⟨a, ht1, ht2, -, hw1, hw2⟩
      exact ⟨a, hw1, hw2, ht1, ht2⟩
  | true =>
    simp only [ProtectionWindow.touches, hc, if_true, decide_eq_true_eq, Bool.true_eq_false, iff_false]
    constructor
    · rintro ⟨hpos, hlow | hhigh⟩
      · exact ⟨t.first, by omega, by omega, by omega, by omega⟩
      · exact ⟨t.first + t.count - 1, by omega, by omega, by omega, by omega⟩
    · rintro ⟨a, ht1, ht2, -, hout⟩
      omega

/-- The size of the sized range (R37, step 1). -/
def ProtectionWindow.sizedCount (w : ProtectionWindow) : Nat := if w.size.val = 0 then 0 else 2 ^ (10 + w.size.val)

/-- The sized range is at most the whole store. -/
theorem sizedCount_le (w : ProtectionWindow) : w.sizedCount ≤ 131072 := by
  obtain ⟨size, side, complement, locked⟩ := w
  revert size
  simp only [ProtectionWindow.sizedCount]
  decide

/-- The sized range at the bottom of the store. -/
theorem sized_bottom {w : ProtectionWindow} (h : w.side = .bottom) : w.sized = ⟨0, w.sizedCount⟩ := by
  simp only [ProtectionWindow.sized, ProtectionWindow.sizedCount, h]

/-- The sized range at the top of the store. -/
theorem sized_top {w : ProtectionWindow} (h : w.side = .top) : w.sized = ⟨131072 - w.sizedCount, w.sizedCount⟩ := by
  simp only [ProtectionWindow.sized, ProtectionWindow.sizedCount, h, Config.storeWords]

/-- Settles O20: the sized range by side, then the complement. -/
theorem protectedSet : Obligations.ProtectedSet := by
  refine ⟨fun w a => ?_, fun w t ht => touches_iff w ht⟩
  have hz := sizedCount_le w
  rw [protects_iff]
  cases hs : w.side with
  | bottom =>
    rw [sized_bottom hs]
    cases w.complement <;> simp [ProtectionWindow.sizedCount]
  | top =>
    rw [sized_top hs, Nat.sub_add_cancel hz]
    cases w.complement <;> simp [ProtectionWindow.sizedCount]

end Sys2Proof.Machine
end

section
/-! PROOFS. What the tables' invariants read, and the changes of it that keep the tables sound, the guarded words and
the locks (spec/02 R22, R29, R37 to R42). -/

namespace Sys2Proof.Machine

/-! ### The invariants and what they read -/

/-- What the tables' invariants read of a state. -/
structure TableParts where
  store : List (Nat × Word)
  descriptors : Vector Descriptor 64
  window : ProtectionWindow
  pins : List Span
  loadUnit : LoadUnit
  running : Bool

/-- The parts of a state that the tables' invariants read. -/
def State.tableParts (s : State) : TableParts where
  store := s.tableStore
  descriptors := s.descriptors
  window := s.window
  pins := s.pins
  loadUnit := s.loadUnit
  running := s.flight.isSome

/-- Word `a` is protected or pinned: no load and no stream may write it (R37, R40). -/
def State.guards (s : State) (a : Nat) : Prop :=
  s.window.protects a = true ∨ ∃ x ∈ s.pins, x.first ≤ a ∧ a < x.first + x.count

/-- What only power-on reset undoes stands: a LOCKED_DOWN descriptor but for its accessed flag, and a locked window
(R29, R39). -/
structure LocksStand (s t : State) : Prop where
  lockedDown : ∀ d, (pick s.descriptors d).lock = .lockedDown →
    pick t.descriptors d = { pick s.descriptors d with accessed := (pick t.descriptors d).accessed }
  window : s.window.locked = true → t.window = s.window

/-- A change keeps the tables sound, writes no guarded word and undoes no lock. -/
structure TablesCarried (s t : State) : Prop where
  sound : TablesSound s → TablesSound t
  words : TablesSound s → ∀ a, s.guards a → storeRead t.tableStore a = storeRead s.tableStore a
  locks : LocksStand s t

/-- A change that keeps the tables sound, writes nothing to the store and undoes no lock. -/
structure TablesHeld (s t : State) : Prop where
  sound : TablesSound s → TablesSound t
  store : t.tableStore = s.tableStore
  locks : LocksStand s t

section
variable {s t u : State}

/-- Two states with the same parts, field by field. -/
theorem tableParts_eq_iff : t.tableParts = s.tableParts ↔ t.tableStore = s.tableStore ∧ t.descriptors = s.descriptors
    ∧ t.window = s.window ∧ t.pins = s.pins ∧ t.loadUnit = s.loadUnit ∧ t.flight.isSome = s.flight.isSome := by
  simp only [State.tableParts, TableParts.mk.injEq]

/-- The reservation is read from the Load Unit. -/
theorem reservation_congr (h : t.loadUnit = s.loadUnit) : t.reservation = s.reservation := by
  rw [State.reservation, State.reservation, h]

/-- Whether the engine is IDLE is read from the parts. -/
theorem flight_none_congr (h : t.tableParts = s.tableParts) (hs : s.flight = none) : t.flight = none := by
  obtain ⟨-, -, -, -, -, hrun⟩ := tableParts_eq_iff.1 h
  exact Option.not_isSome_iff_eq_none.1 (by simp [hrun, hs])

/-- Soundness reads the parts only. -/
theorem TablesSound.congr (h : TablesSound s) (hp : t.tableParts = s.tableParts) : TablesSound t := by
  obtain ⟨-, hdesc, hwindow, hpins, hload, -⟩ := tableParts_eq_iff.1 hp
  exact
    { descriptors := hdesc ▸ h.descriptors
      null := hdesc ▸ h.null
      loads := hload ▸ h.loads
      idle := fun hf => hpins ▸ h.idle (flight_none_congr hp.symm hf)
      pinCount := hpins ▸ h.pinCount
      pinWords := hpins ▸ h.pinWords
      reserved := by rw [reservation_congr hload, hwindow, hpins]; exact h.reserved }

/-- The locks of a state that stand are read from the parts. -/
theorem LocksStand.congr {s' t' : State} (h : LocksStand s t) (hs : s'.tableParts = s.tableParts)
    (ht : t'.tableParts = t.tableParts) : LocksStand s' t' := by
  obtain ⟨-, hsdesc, hswindow, -, -, -⟩ := tableParts_eq_iff.1 hs
  obtain ⟨-, htdesc, htwindow, -, -, -⟩ := tableParts_eq_iff.1 ht
  exact ⟨by rw [hsdesc, htdesc]; exact h.lockedDown, by rw [hswindow, htwindow]; exact h.window⟩

/-- Locks that stand through two changes. -/
theorem LocksStand.trans (h : LocksStand s t) (k : LocksStand t u) : LocksStand s u where
  lockedDown d hd := by
    have ht := h.lockedDown d hd
    have hlock : (pick t.descriptors d).lock = .lockedDown := by rw [ht]; exact hd
    rw [k.lockedDown d hlock, ht]
  window hl := by
    have ht := h.window hl
    exact (k.window (ht ▸ hl)).trans ht

/-- Descriptors that change but for their accessed flags only where they are not LOCKED_DOWN, under one window. -/
theorem LocksStand.of_descriptors (hw : t.window = s.window) (hd : ∀ d, (pick s.descriptors d).lock = .lockedDown →
    pick t.descriptors d = { pick s.descriptors d with accessed := (pick t.descriptors d).accessed }) :
    LocksStand s t :=
  ⟨hd, fun _ => hw⟩

/-- The locks stand where descriptors and window do. -/
theorem LocksStand.of_eq (hd : t.descriptors = s.descriptors) (hw : t.window = s.window) : LocksStand s t :=
  .of_descriptors hw fun d _ => by rw [hd]

/-- A change that leaves the parts. -/
theorem TablesHeld.of_parts (h : t.tableParts = s.tableParts) : TablesHeld s t := by
  obtain ⟨hstore, hdesc, hwindow, -, -, -⟩ := tableParts_eq_iff.1 h
  exact ⟨fun hs => hs.congr h, hstore, .of_eq hdesc hwindow⟩

/-- Two changes, one after the other. -/
theorem TablesHeld.trans (h : TablesHeld s t) (k : TablesHeld t u) : TablesHeld s u :=
  ⟨fun hs => k.sound (h.sound hs), k.store.trans h.store, h.locks.trans k.locks⟩

/-- A change is judged by the parts after it. -/
theorem TablesHeld.congr {t' : State} (h : TablesHeld s t) (ht : t'.tableParts = t.tableParts) : TablesHeld s t' :=
  h.trans (.of_parts ht)

/-- A change that leaves the store writes no guarded word. -/
theorem TablesHeld.carried (h : TablesHeld s t) : TablesCarried s t :=
  ⟨h.sound, fun _ _ _ => by rw [h.store], h.locks⟩

/-- A change is judged by the parts before and after it. -/
theorem TablesCarried.congr {s' t' : State} (h : TablesCarried s t) (hs : s'.tableParts = s.tableParts)
    (ht : t'.tableParts = t.tableParts) : TablesCarried s' t' := by
  obtain ⟨hsstore, -, hswindow, hspins, -, -⟩ := tableParts_eq_iff.1 hs
  obtain ⟨htstore, -, -, -, -, -⟩ := tableParts_eq_iff.1 ht
  refine ⟨fun k => (h.sound (k.congr hs.symm)).congr ht, fun k a ha => ?_, h.locks.congr hs ht⟩
  rw [State.guards, hswindow, hspins] at ha
  rw [hsstore, htstore]
  exact h.words (k.congr hs.symm) a ha

/-- A change that leaves the parts. -/
theorem TablesCarried.of_parts (h : t.tableParts = s.tableParts) : TablesCarried s t := (TablesHeld.of_parts h).carried

end

/-! ### Descriptors (R22, R26, R29) -/

/-- A descriptor covers words of the store (R22). -/
def Descriptor.fits (x : Descriptor) : Prop := x.base % 64 = 0 ∧ x.limit ≤ 4095 ∧ x.base + x.span ≤ 131072

section
variable {s : State}

/-- The tables stay sound under descriptors that cover words of the store, descriptor 0 being the null descriptor. -/
theorem TablesSound.with_descriptors (h : TablesSound s) {ds : Vector Descriptor 64}
    (hfits : ∀ d, (pick ds d).fits) (hnull : pick ds 0 = Descriptor.powerOn) :
    TablesSound { s with descriptors := ds } :=
  { h with descriptors := hfits, null := hnull }

/-- Accessed flags change, descriptor 0's being set by no change. -/
theorem held_accessed {ds : Vector Descriptor 64}
    (hds : ∀ d, pick ds d = { pick s.descriptors d with accessed := (pick ds d).accessed })
    (hnull : (pick ds 0).accessed = true → (pick s.descriptors 0).accessed = true) :
    TablesHeld s { s with descriptors := ds } where
  sound h := by
    refine h.with_descriptors (fun d => ?_) ?_
    · rw [hds d]
      exact h.descriptors d
    · have hclear : (pick ds 0).accessed = false := by
        rw [h.null] at hnull
        exact Bool.eq_false_of_not_eq_true fun k => nomatch hnull k
      rw [hds 0, hclear, h.null]
      rfl
  store := rfl
  locks := .of_descriptors rfl fun d _ => hds d

/-- One descriptor but the null one changes, where its lock state lets it. -/
theorem held_updDescriptor {d : Fin 64} {f : Descriptor → Descriptor} (hd : d ≠ 0)
    (hfits : (pick s.descriptors d).fits → (f (pick s.descriptors d)).fits)
    (hlock : (pick s.descriptors d).lock = .lockedDown → f (pick s.descriptors d) = pick s.descriptors d) :
    TablesHeld s (s.updDescriptor d f) where
  sound h := by
    refine h.with_descriptors (fun e => ?_) ?_
    · rw [pick_upd]
      split
      · next he => exact he ▸ hfits (h.descriptors d)
      · exact h.descriptors e
    · rw [pick_upd_other _ _ hd.symm]
      exact h.null
  store := rfl
  locks := .of_descriptors rfl fun e he => by
    rw [State.updDescriptor_descriptors, pick_upd]
    split
    · next hde => rw [hde] at he ⊢; rw [hlock he]
    · rfl

end

/-! ### The window (R38, R39) -/

section
variable {s : State}

/-- The reservation lies in the store (R41). -/
theorem TablesSound.reservation_inStore (h : TablesSound s) {t : Span} (ht : t ∈ s.reservation) :
    t.first + t.count ≤ 131072 := by
  have hfits := h.loads
  unfold State.reservation at ht
  cases hu : s.loadUnit with
  | idle => rw [hu] at ht; cases ht
  | loading d target b => rw [hu] at ht; cases ht
  | streaming d target n =>
    rw [hu] at ht hfits
    cases ht
    exact hfits.2.1

/-- What some value does not satisfy, its one value does not. -/
theorem any_eq_false_mem {α : Type} {o : Option α} {p : α → Bool} (h : o.any p = false) {x : α} (hx : x ∈ o) :
    p x = false := by
  cases hx
  exact h

/-- An unlocked window set to one that protects no word of the reservation. -/
theorem held_window {w : ProtectionWindow} (hl : s.window.locked = false) (hr : s.reservation.any w.touches = false) :
    TablesHeld s { s with window := w } where
  sound h := by
    have hclear : ∀ t ∈ s.reservation, ∀ a, t.first ≤ a → a < t.first + t.count → w.protects a = false := by
      intro t ht a ha1 ha2
      exact Bool.eq_false_of_not_eq_true fun hp => Bool.false_ne_true
        ((any_eq_false_mem hr ht).symm.trans ((touches_iff w (h.reservation_inStore ht)).2 ⟨a, ha1, ha2, hp⟩))
    exact { h with reserved := fun t ht a ha1 ha2 => ⟨hclear t ht a ha1 ha2, (h.reserved t ht a ha1 ha2).2⟩ }
  store := rfl
  locks := ⟨fun _ _ => rfl, fun k => nomatch hl.symm.trans k⟩

/-- The protection lock set: the protected set is the same. -/
theorem held_windowLock (s : State) : TablesHeld s { s with window := { s.window with locked := true } } where
  sound h := { h with }
  store := rfl
  locks := ⟨fun _ _ => rfl, fun k => by rw [← k]⟩

end

/-! ### The Load Unit and the store (R41, R42, R47, R52) -/

section
variable {s : State}

/-- The Load Unit takes a state in range without a reservation. -/
theorem held_unit {l : LoadUnit} (hfits : TablesSound s → l.fits)
    (hl : State.reservation { s with loadUnit := l } = none) : TablesHeld s { s with loadUnit := l } where
  sound h := { h with
    loads := hfits h
    reserved := fun t ht => by rw [hl] at ht; cases ht }
  store := rfl
  locks := .of_eq rfl rfl

/-- The Load Unit left IDLE. -/
theorem held_idleUnit (s : State) : TablesHeld s { s with loadUnit := .idle } :=
  held_unit (s := s) (l := .idle) (fun _ => trivial) rfl

/-- A run of words lies in the store (R21). -/
theorem inStore_iff (t : Span) : t.inStore = true ↔ t.first + t.count ≤ 131072 := decide_eq_true_iff

/-- A target in the store that no window and no pin covers has no guarded word. -/
theorem not_guards {t : Span} {a : Nat} (ht : t.first + t.count ≤ 131072) (hw : s.window.touches t = false)
    (hp : s.pinned t = false) (ha1 : t.first ≤ a) (ha2 : a < t.first + t.count) : ¬ s.guards a := by
  rintro (hprot | ⟨x, hx, hxa⟩)
  · exact Bool.false_ne_true (hw.symm.trans ((touches_iff _ ht).2 ⟨a, ha1, ha2, hprot⟩))
  · exact Bool.false_ne_true (hp.symm.trans ((pinned_iff s t).2 ⟨a, ha1, ha2, x, hx, hxa⟩))

/-- A word is not guarded when it is neither protected nor pinned. -/
theorem not_guards_iff (a : Nat) : ¬ s.guards a ↔
    s.window.protects a = false ∧ ∀ x ∈ s.pins, ¬ (x.first ≤ a ∧ a < x.first + x.count) := by
  simp [State.guards]

/-- A stream opens on a target without guarded words. -/
theorem held_stream {d : Fin 64} {t : Span} (hfits : TablesSound s → (LoadUnit.streaming d t 0).fits)
    (hw : s.window.touches t = false) (hp : s.pinned t = false) :
    TablesHeld s { s with loadUnit := .streaming d t 0 } where
  sound h := { h with
    loads := hfits h
    reserved := fun r hr a ha1 ha2 => by
      cases hr
      exact (not_guards_iff a).1 (not_guards (hfits h).2.1 hw hp ha1 ha2) }
  store := rfl
  locks := .of_eq rfl rfl

/-- Words written where none is guarded, the Load Unit moving on soundly. -/
theorem carried_write {a : Nat} {ws : List Word} {l : LoadUnit}
    (hw : TablesSound s → ∀ b, a ≤ b → b < a + ws.length → ¬ s.guards b)
    (hl : TablesSound s → TablesSound { s with loadUnit := l }) :
    TablesCarried s { s with tableStore := storeWriteAll s.tableStore a ws, loadUnit := l } where
  sound h := { hl h with }
  words h b hb := by
    refine storeRead_storeWriteAll_other _ ws ?_
    have := hw h b
    by_contra hin
    exact this (by omega) (by omega) hb
  locks := .of_eq rfl rfl

end

/-! ### Pins (R40) -/

section
variable {s : State}

/-- The engine comes to rest and every pin is released. -/
theorem held_landed (s : State) : TablesHeld s { s with pins := [], flight := none } where
  sound h := { h with
    idle := fun _ => rfl
    pinCount := Nat.zero_le 4
    pinWords := fun _ hx => absurd hx List.not_mem_nil
    reserved := fun t ht a ha1 ha2 => ⟨(h.reserved t ht a ha1 ha2).1, fun _ hx => absurd hx List.not_mem_nil⟩ }
  store := rfl
  locks := .of_eq rfl rfl

/-- A job in flight pins at most four descriptors' words, none of them reserved. -/
theorem held_pins {ps : List Span} {f : Flight} (hidle : s.flight = none) (hcount : ps.length ≤ 4)
    (hwords : ∀ x ∈ ps, ∃ d, x = (pick s.descriptors d).words)
    (hapart : ∀ x ∈ ps, s.reservation.any x.overlaps = false) :
    TablesHeld s { s with pins := s.pins ++ ps, flight := some f } where
  sound h := by
    have hpins : s.pins ++ ps = ps := by rw [h.idle hidle, List.nil_append]
    have hclear : ∀ t ∈ s.reservation, ∀ a, t.first ≤ a → a < t.first + t.count →
        s.window.protects a = false ∧ ∀ x ∈ ps, ¬ (x.first ≤ a ∧ a < x.first + x.count) := fun t ht a ha1 ha2 =>
      ⟨(h.reserved t ht a ha1 ha2).1, fun x hx hxa => Bool.false_ne_true
        ((any_eq_false_mem (hapart x hx) ht).symm.trans ((overlaps_iff x t).2 ⟨a, hxa.1, hxa.2, ha1, ha2⟩))⟩
    refine { h with idle := nofun, pinCount := ?_, pinWords := ?_, reserved := ?_ }
    · rw [hpins]
      exact hcount
    · rw [hpins]
      rintro x hx
      obtain ⟨d, rfl⟩ := hwords x hx
      exact (h.descriptors d).2.2
    · rw [hpins]
      exact hclear
  store := rfl
  locks := .of_eq rfl rfl

end

end Sys2Proof.Machine
end

section
/-! PROOFS. The operations and the commands that leave what the tables' invariants read (spec/01, spec/04, spec/09 to
spec/11). -/

namespace Sys2Proof.Machine

/-! ### Operations that leave the parts -/

section
variable (s : State)

@[simp] theorem tableParts_updPort (c : Fin 4) (f : Port → Port) : (s.updPort c f).tableParts = s.tableParts := rfl
@[simp] theorem tableParts_updSource (i : Fin 12) (f : SourceSlot → SourceSlot) :
    (s.updSource i f).tableParts = s.tableParts := rfl
@[simp] theorem tableParts_updView (v : Fin 16) (f : View → View) : (s.updView v f).tableParts = s.tableParts := rfl
@[simp] theorem tableParts_updRecord (n : RecordNumber) (f : Record → Record) :
    (s.updRecord n f).tableParts = s.tableParts := rfl
@[simp] theorem tableParts_setSticky (f : StickyFlag) : (s.setSticky f).tableParts = s.tableParts := rfl
@[simp] theorem tableParts_countCamera (c : Fin 4) (f : CameraCounters → CameraCounters) :
    (s.countCamera c f).tableParts = s.tableParts := rfl
@[simp] theorem tableParts_countView (v : Fin 16) (f : ViewCounters → ViewCounters) :
    (s.countView v f).tableParts = s.tableParts := rfl
@[simp] theorem tableParts_releaseSource (i : Fin 12) : (s.releaseSource i).tableParts = s.tableParts := rfl
@[simp] theorem tableParts_finalise (n : RecordNumber) (x : RecordStatus) :
    (s.finalise n x).tableParts = s.tableParts := rfl

/-- A notice. -/
@[simp] theorem tableParts_raise (n : Notice) : (s.raise n).tableParts = s.tableParts := by
  obtain ⟨q, k, i, h⟩ := raise_only s n
  rw [h]
  rfl

/-- A view that leaves its waiting state. -/
@[simp] theorem tableParts_settle (v : Fin 16) : (s.settle v).tableParts = s.tableParts := by
  rw [settle_eq]
  rfl

/-- An offer to the Forward Queue. -/
@[simp] theorem tableParts_offer (e : ForwardEntry) : (s.offer e).tableParts = s.tableParts := by
  obtain ⟨fq, vs, q, k, i, h⟩ := offer_only s e
  rw [h]
  rfl

/-- Queued jobs removed. -/
@[simp] theorem tableParts_removeJobs (gone : Job → Bool) : (s.removeJobs gone).tableParts = s.tableParts := by
  rw [removeJobs_eq]
  rfl

end

/-- A run of operations leaves the parts when each does. -/
theorem tableParts_foldl {α : Type} {f : State → α → State} (h : ∀ s a, (f s a).tableParts = s.tableParts)
    (as : List α) (s : State) : (as.foldl f s).tableParts = s.tableParts := by
  induction as generalizing s with
  | nil => rfl
  | cons a as ih => rw [List.foldl_cons, ih, h]

/-! ### The camera packets (R5, R8, R11) -/

section
variable (c : Fin 4) (s : State)

/-- A frame damaged. -/
@[simp] theorem tableParts_damageFrame (r : Reception) (repairs : Nat) :
    (damageFrame c r repairs s).tableParts = s.tableParts := by
  rw [damageFrame, tableParts_raise, tableParts_setSticky, tableParts_countCamera, tableParts_updPort,
    State.stopReceiving, tableParts_updSource]

/-- A line repaired, or the frame damaged. -/
theorem tableParts_repairLine : (repairLine c s).tableParts = s.tableParts := by
  unfold repairLine
  split
  · dsimp only
    split
    · rw [tableParts_damageFrame, tableParts_countCamera, State.writeRow, tableParts_updSource]
    · rw [tableParts_updPort, tableParts_countCamera, State.writeRow, tableParts_updSource]
  all_goals rfl

/-- A run of repairs. -/
@[simp] theorem tableParts_repairLines (n : Nat) : (repairLines c n s).tableParts = s.tableParts := by
  induction n generalizing s with
  | zero => rfl
  | succ n ih => rw [repairLines, ih, tableParts_repairLine]

/-- A view's visit by a posted frame. -/
theorem tableParts_visitView (job : Fin 16 → Job) (v : Fin 16) :
    (visitView job s v).tableParts = s.tableParts := by
  unfold visitView
  repeat' split
  all_goals rfl

/-- A posted frame offered to every view. -/
@[simp] theorem tableParts_offerFrame (r : Reception) : (offerFrame c r s).tableParts = s.tableParts :=
  tableParts_foldl (fun t v => tableParts_visitView t _ v) _ s

/-- The dark-tracking update. -/
@[simp] theorem tableParts_trackBlack (r : Reception) : (trackBlack c r s).tableParts = s.tableParts := by
  simp only [trackBlack]
  split <;> rfl

/-- The sequence check. -/
@[simp] theorem tableParts_sequenceCheck (q : Half) : (sequenceCheck c q s).tableParts = s.tableParts := by
  simp only [sequenceCheck]
  repeat' split
  all_goals rfl

/-- A posted frame. -/
theorem tableParts_postFrame (r : Reception) : (postFrame c r s).tableParts = s.tableParts := by
  simp only [postFrame, State.stopReceiving, tableParts_updSource, tableParts_offerFrame, tableParts_trackBlack,
    tableParts_sequenceCheck, tableParts_countCamera, tableParts_updPort]

/-- A frame closed. -/
theorem tableParts_closeFrame (r : Reception) (sent : Nat) : (closeFrame c r sent s).tableParts = s.tableParts := by
  have hrepair : ∀ n, (repairLines c n (if sent = (pick s.ports c).height then s
      else s.countCamera c fun k => { k with endMismatches := satInc k.endMismatches })).tableParts
        = s.tableParts := fun n => by
    rw [tableParts_repairLines]
    split <;> rfl
  simp only [closeFrame]
  split
  · exact (tableParts_postFrame ..).trans (hrepair _)
  all_goals exact hrepair _

/-- A frame begun or turned away. -/
theorem tableParts_beginFrame (f : FrameStartFields) : (beginFrame c f s).tableParts = s.tableParts := by
  simp only [beginFrame]
  repeat' split
  all_goals rfl

/-- A good line written. -/
theorem tableParts_writeLine (l : LineFields) : (writeLine c l s).tableParts = s.tableParts := by
  unfold writeLine
  split <;> rfl

/-- A line taken. -/
theorem tableParts_takeLine (r : Reception) (l : LineFields) : (takeLine c r l s).tableParts = s.tableParts := by
  simp only [takeLine]
  split
  · rfl
  · split
    · rfl
    · split
      · rw [tableParts_writeLine, tableParts_repairLines]
      · exact tableParts_repairLines ..

end

section
variable {c : Fin 4} {packet : List Byte} {s t : State}

/-- FRAME_START. -/
theorem exec_frameStart_tableParts (h : exec (.frameStart c packet) s = .next t) : t.tableParts = s.tableParts := by
  simp only [exec, execFrameStart] at h
  split at h
  · cases h
    rfl
  · split at h <;> cases h
    · rfl
    · exact tableParts_beginFrame ..
    · exact tableParts_beginFrame ..
    · exact (tableParts_beginFrame ..).trans (tableParts_closeFrame ..)

/-- LINE. -/
theorem exec_line_tableParts (h : exec (.line c packet) s = .next t) : t.tableParts = s.tableParts := by
  simp only [exec, execLine] at h
  split at h
  · cases h
    rfl
  · split at h <;> cases h
    · exact tableParts_takeLine ..
    all_goals rfl

/-- FRAME_END. -/
theorem exec_frameEnd_tableParts (h : exec (.frameEnd c packet) s = .next t) : t.tableParts = s.tableParts := by
  simp only [exec, execFrameEnd] at h
  split at h
  · cases h
    rfl
  · split at h <;> cases h
    · exact tableParts_closeFrame ..
    all_goals rfl

end

/-! ### The Uplink Arbiter (R154 to R156) -/

/-- The end of a transmission. -/
theorem tableParts_sendEnd (x : Transmission) (truncated : Bool) (s : State) :
    (sendEnd x truncated s).tableParts = s.tableParts := by
  simp only [sendEnd]
  split <;> rfl

/-- A new transmission. -/
theorem tableParts_startTransmission (s : State) : (startTransmission s).tableParts = s.tableParts := by
  have hstale := tableParts_foldl (f := countStale) (fun _ _ => rfl) (s.forwardQueue.takeWhile s.entryStale) s
  simp only [startTransmission]
  split
  · exact hstale
  · refine Eq.trans ?_ hstale
    simp only [beginTransmission]
    split <;> rfl

/-- The arbiter's choice. -/
theorem tableParts_arbitrate (s : State) : (arbitrate s).tableParts = s.tableParts := by
  have himage : (sendImage s).tableParts = s.tableParts := by
    unfold sendImage
    split
    · split
      · exact tableParts_sendEnd ..
      · split
        · rfl
        · split
          · rfl
          · exact tableParts_sendEnd ..
    · split
      · rfl
      · exact tableParts_startTransmission s
  unfold arbitrate
  split
  · rfl
  · split
    · rfl
    · split
      · rfl
      · exact himage

/-! ### The rows outside the interpreter (R160 to R163, R168) -/

section
variable {s t : State}

/-- DOWNLINK_PACKET. -/
theorem exec_downlinkPacket_tableParts {packet : List Byte} (h : exec (.downlinkPacket packet) s = .next t) :
    t.tableParts = s.tableParts := by
  simp only [exec, execDownlinkPacket] at h
  split at h <;> cases h
  · rfl
  · simp only [dispatchPacket, bufferPacket]
    repeat' split
    all_goals rfl

/-- UNKNOWN_COMMAND. -/
theorem exec_unknownCommand_tableParts (h : exec .unknownCommand s = .next t) : t.tableParts = s.tableParts := by
  simp only [exec, execUnknownCommand] at h
  split at h
  · cases h
    rfl
  · split at h <;> cases h <;> rfl

/-- BROADCAST_IGNORED. -/
theorem exec_broadcastIgnored_tableParts (h : exec .broadcastIgnored s = .next t) : t.tableParts = s.tableParts := by
  simp only [exec, execBroadcastIgnored] at h
  split at h
  · cases h
    rfl
  · split at h <;> cases h <;> rfl

/-- RELAY_BYTE. -/
theorem exec_relayByte_tableParts {b : Byte} (h : exec (.relayByte b) s = .next t) : t.tableParts = s.tableParts := by
  cases h
  split <;> rfl

/-- RELAY_IDLE_TIMEOUT. -/
theorem exec_relayIdleTimeout_tableParts (h : exec .relayIdleTimeout s = .next t) : t.tableParts = s.tableParts := by
  cases h
  split <;> rfl

/-- OUTPUT_PIXEL: a job in flight stays in flight. -/
theorem exec_outputPixel_tableParts (h : exec .outputPixel s = .next t) : t.tableParts = s.tableParts := by
  simp only [exec, execOutputPixel] at h
  split at h
  · cases h
    rfl
  · next f hf =>
    split at h <;> cases h
    · exact tableParts_eq_iff.2 ⟨rfl, rfl, rfl, rfl, rfl, by rw [hf]; rfl⟩
    · rfl

end

/-! ### The interpreter (R163) -/

/-- A command's rule that leaves the parts the tables' invariants read. -/
def LeavesTables (rule : List Byte → State → Answer) : Prop :=
  ∀ payload s, ((rule payload s).left s).tableParts = s.tableParts

/-- A command's rule that keeps the tables sound, the guarded words and the locks. -/
def CarriesTables (rule : List Byte → State → Answer) : Prop :=
  ∀ payload s, TablesCarried s ((rule payload s).left s)

/-- A rule that leaves the parts carries the tables. -/
theorem LeavesTables.carries {rule : List Byte → State → Answer} (h : LeavesTables rule) : CarriesTables rule :=
  fun payload s => .of_parts (h payload s)

/-- A patch load cancelled (R44). -/
theorem held_cancelLoad (s : State) : TablesHeld s s.cancelLoad := (held_idleUnit s).congr rfl

/-- The checks of R163 cancel a patch load at most, or the rule runs. -/
theorem CarriesTables.checked {rule : List Byte → State → Answer} (h : CarriesTables rule) (c : Command)
    (payload : List Byte) (s : State) : TablesCarried s ((checked c payload rule s).left s) := by
  rcases checked_cases c payload rule s with ⟨-, -, e⟩ | ⟨-, -, e⟩ | ⟨-, -, e⟩ | ⟨-, e⟩ | ⟨-, e⟩ <;> rw [e]
  · exact .of_parts rfl
  · exact (held_cancelLoad s).carried
  · exact .of_parts rfl
  · exact .of_parts rfl
  · exact h payload s

/-- A row of the interpreter carries the tables when its command's rule does. -/
theorem CarriesTables.row {rule : List Byte → State → Answer} (h : CarriesTables rule) {c : Command} {s t : State}
    (ht : runCommand c rule s = .next t) : TablesCarried s t := by
  rcases runCommand_cases c rule s with e | ⟨p, rest, -, ⟨u, status, data, hu, e⟩ | ⟨f, -, e⟩⟩
  · cases e.symm.trans ht
    exact .of_parts rfl
  · cases e.symm.trans ht
    have := h.checked c p.payload { s with commandBuffer := rest }
    rw [hu] at this
    exact this.congr rfl rfl
  · cases e.symm.trans ht

/-- A row also executed by broadcast carries the tables when its rule and its effect do. -/
theorem CarriesTables.broadcastRow {rule : List Byte → State → Answer} {effect : List Byte → State → State}
    (h : CarriesTables rule) (he : ∀ payload s, TablesCarried s (effect payload s)) {c : Command} {s t : State}
    (ht : runBroadcastable c rule effect s = .next t) : TablesCarried s t := by
  rcases runBroadcastable_cases c rule effect s with e | ⟨p, rest, -, -, -, -, e⟩
  · exact h.row (e ▸ ht)
  · cases e.symm.trans ht
    exact (he p.payload { s with commandBuffer := rest }).congr rfl rfl

/-! ### Commands that leave the tables

In every branch of each of these rules the fields that change are none the tables' invariants read. -/

theorem leavesTables_setCamera : LeavesTables setCameraRule := fun payload s => by
  simp only [setCameraRule]
  repeat' split
  all_goals rfl

theorem leavesTables_cameraEnable : LeavesTables cameraEnableRule := fun payload s => by
  simp only [cameraEnableRule, enableCamera, disableCamera]
  repeat' split
  all_goals rfl

theorem leavesTables_setBlackLevel : LeavesTables setBlackLevelRule := fun payload s => by
  simp only [setBlackLevelRule]
  split <;> rfl

theorem leavesTables_readTable : LeavesTables readTableRule := fun payload s => by
  simp only [readTableRule]
  repeat' split
  all_goals rfl

theorem leavesTables_writeView : LeavesTables writeViewRule := fun payload s => by
  simp only [writeViewRule]
  repeat' split
  all_goals rfl

theorem leavesTables_readView : LeavesTables readViewRule := fun payload s => by
  simp only [readViewRule]
  split <;> rfl

theorem leavesTables_viewActivate : LeavesTables viewActivateRule := fun payload s => by
  simp only [viewActivateRule]
  repeat' split
  all_goals rfl

theorem leavesTables_viewHold : LeavesTables viewHoldRule := fun payload s => by
  simp only [viewHoldRule]
  repeat' split
  all_goals rfl

theorem leavesTables_viewDisable : LeavesTables viewDisableRule := fun payload s => by
  simp only [viewDisableRule, disableView]
  split
  · rfl
  · next v _ =>
    refine Eq.trans ?_ (tableParts_removeJobs s fun j => j.view == v)
    simp only [viewStateReply, Answer.left]
    split <;> rfl

theorem leavesTables_readRecords : LeavesTables readRecordsRule := fun payload s => by
  simp only [readRecordsRule]
  split <;> rfl

/-- The Time Tag Counter's update. -/
theorem tableParts_setTimeTag (payload : List Byte) (s : State) :
    (setTimeTag payload s).tableParts = s.tableParts := by
  unfold setTimeTag
  split <;> rfl

theorem leavesTables_setTimeTag : LeavesTables setTimeTagRule := fun payload s => by
  simp only [setTimeTagRule]
  split
  · exact tableParts_setTimeTag payload s
  · rfl

theorem leavesTables_uplinkPause : LeavesTables uplinkPauseRule := fun _ _ => rfl

theorem leavesTables_uplinkResume : LeavesTables uplinkResumeRule := fun _ _ => rfl

theorem leavesTables_uplinkFlush : LeavesTables uplinkFlushRule := fun _ _ => rfl

theorem leavesTables_identify : LeavesTables identifyRule := fun _ _ => rfl

theorem leavesTables_getStatus : LeavesTables getStatusRule := fun _ _ => rfl

theorem leavesTables_clearStatus : LeavesTables clearStatusRule := fun payload s => by
  simp only [clearStatusRule]
  split <;> rfl

theorem leavesTables_setNoticeMask : LeavesTables setNoticeMaskRule := fun payload s => by
  simp only [setNoticeMaskRule]
  split <;> rfl

theorem leavesTables_readCounters : LeavesTables readCountersRule := fun payload s => by
  simp only [readCountersRule]
  repeat' split
  all_goals rfl

/-- A recall at most offers an entry to the Forward Queue. -/
theorem tableParts_recallRecord {n : RecordNumber} {s t : State} {d : Disposition}
    (h : recallRecord n s = .ok (t, d)) : t.tableParts = s.tableParts := by
  unfold recallRecord at h
  repeat' split at h
  all_goals cases h
  · rfl
  · exact tableParts_offer s _

theorem leavesTables_recallFrame : LeavesTables recallFrameRule := fun payload s => by
  simp only [recallFrameRule]
  split
  · rfl
  · next h => exact tableParts_recallRecord h

theorem leavesTables_recallLatest : LeavesTables recallLatestRule := fun payload s => by
  simp only [recallLatestRule]
  split
  · rfl
  · split
    · rfl
    · split
      · rfl
      · next h => exact tableParts_recallRecord h

end Sys2Proof.Machine
end

section
/-! PROOFS. The descriptor, window, load and stream commands and Soft Reset carry the tables (spec/02, spec/03,
R170). -/

namespace Sys2Proof.Machine

/-! ### Descriptor commands (R23 to R29) -/

/-- A usable descriptor number names a descriptor but the null one. -/
theorem usableDescriptor_eq_some {n : Nat} {d : Fin 64} : usableDescriptor n = some d ↔ d.val = n ∧ d ≠ 0 := by
  unfold usableDescriptor
  split
  · next h =>
    subst h
    exact ⟨nofun, fun ⟨hd, hne⟩ => absurd (Fin.ext hd) hne⟩
  · next h =>
    rw [below?_eq_some]
    exact ⟨fun hd => ⟨hd, fun e => h (by rw [← hd, e]; rfl)⟩, fun hd => hd.1⟩

/-- An accessed flag cleared. -/
theorem held_clearAccessed {s : State} {ds : Vector Descriptor 64}
    (h : ∀ d, pick ds d = pick s.descriptors d ∨ pick ds d = { pick s.descriptors d with accessed := false }) :
    TablesHeld s { s with descriptors := ds } :=
  held_accessed (fun d => by rcases h d with e | e <;> rw [e]) fun k => by
    rcases h 0 with e | e
    · rwa [e] at k
    · rw [e] at k
      cases k

/-- Write Descriptor (R23). -/
theorem carriesTables_writeDescriptor : CarriesTables writeDescriptorRule := fun payload s => by
  simp only [writeDescriptorRule]
  split
  · next d g ty present hd _ _ _ =>
    split
    · exact .of_parts rfl
    · next hlimit =>
      split
      · exact .of_parts rfl
      · next hlock =>
        split
        · exact .of_parts rfl
        · next hrange =>
          rw [not_or, not_not, not_not, inStore_iff] at hrange
          exact (held_updDescriptor (usableDescriptor_eq_some.1 hd).2
            (fun _ => ⟨hrange.1, Nat.le_of_not_lt hlimit, hrange.2⟩)
            fun hdown => nomatch (not_not.1 hlock).symm.trans hdown).carried
  · exact .of_parts rfl

/-- Read Descriptor (R24). -/
theorem carriesTables_readDescriptor : CarriesTables readDescriptorRule := fun payload s => by
  simp only [readDescriptorRule]
  split
  · next d clear _ _ =>
    cases clear with
    | false => exact .of_parts rfl
    | true =>
      refine (held_clearAccessed fun e => ?_).carried
      rw [pick_upd]
      split
      · exact .inr rfl
      · exact .inl rfl
  · exact .of_parts rfl

/-- Clear-Accessed Descriptor (R25). -/
theorem carriesTables_clearAccessed : CarriesTables clearAccessedRule := fun payload s => by
  refine (held_clearAccessed fun d => ?_).carried
  rw [pick_tabulate]
  dsimp only
  split
  · exact .inr rfl
  · exact .inl rfl

/-- A lock command whose table lets LOCKED_DOWN go nowhere else (R27 to R29). -/
theorem carriesTables_lock {next : LockState → Option LockState}
    (hnext : ∀ l, next .lockedDown = some l → l = .lockedDown) : CarriesTables (lockRule next) := fun payload s => by
  simp only [lockRule]
  split
  · exact .of_parts rfl
  · next d hd =>
    split
    · exact .of_parts rfl
    · next l hl =>
      refine (held_updDescriptor (usableDescriptor_eq_some.1 hd).2 (fun hfits => hfits) fun hdown => ?_).carried
      rw [hdown] at hl
      rw [hnext l hl, ← hdown]

/-! ### The protection window (R38, R39) -/

/-- Set Protection Window (R38). -/
theorem carriesTables_setWindow : CarriesTables setWindowRule := fun payload s => by
  simp only [setWindowRule]
  split
  · split
    · exact .of_parts rfl
    · next hlocked =>
      split
      · exact .of_parts rfl
      · next hbusy =>
        exact (held_window (Bool.eq_false_of_not_eq_true hlocked) (Bool.eq_false_of_not_eq_true hbusy)).carried
  · exact .of_parts rfl

/-- Protection Lock (R39). -/
theorem carriesTables_protectionLock : CarriesTables protectionLockRule := fun _ s => (held_windowLock s).carried

/-! ### Patch loads (R45 to R49) -/

/-- A descriptor a load or stream may name is not the null one. -/
theorem loadableDescriptor_ne_zero {s : State} {n : Nat} {d : Fin 64} (h : loadableDescriptor s n = some d) :
    d ≠ 0 :=
  (usableDescriptor_eq_some.1 (Option.filter_eq_some_iff.1 h).1).2

/-- Words inside a descriptor's span lie in the store (R22). -/
theorem TablesSound.inSpan {s : State} (h : TablesSound s) {d : Fin 64} {offset count : Nat}
    (hspan : ¬ (pick s.descriptors d).span < offset + count) :
    (pick s.descriptors d).base + offset + count ≤ 131072 := by
  obtain ⟨-, -, hstore⟩ := h.descriptors d
  omega

/-- Load Open (R45). -/
theorem carriesTables_loadOpen : CarriesTables loadOpenRule := fun payload s => by
  simp only [loadOpenRule]
  split
  · exact .of_parts rfl
  · next d hd =>
    split
    · exact .of_parts rfl
    · next hcount =>
      split
      · exact .of_parts rfl
      · split
        · exact .of_parts rfl
        · next hspan =>
          refine (held_unit (fun h => ?_) rfl).carried
          exact ⟨loadableDescriptor_ne_zero hd, Nat.le_of_not_lt fun k => hcount (.inl k),
            Nat.le_of_not_lt fun k => hcount (.inr k), h.inSpan hspan, Nat.zero_le _⟩

/-- Load Data (R46). -/
theorem carriesTables_loadData : CarriesTables loadDataRule := fun payload s => by
  simp only [loadDataRule]
  split
  · exact .of_parts rfl
  · exact .of_parts rfl
  · next d target buffer hu =>
    split
    · exact .of_parts rfl
    · exact .of_parts rfl
    · split
      · exact (held_cancelLoad s).carried
      · next hlen =>
        refine (held_unit (fun h => ?_) rfl).carried
        have hfits := h.loads
        rw [hu] at hfits
        obtain ⟨hd, hone, hmax, hstore, -⟩ := hfits
        exact ⟨hd, hone, hmax, hstore, Nat.le_of_not_lt hlen⟩

/-- Load Commit (R47). -/
theorem carriesTables_loadCommit : CarriesTables loadCommitRule := fun payload s => by
  simp only [loadCommitRule]
  split
  · exact .of_parts rfl
  · exact .of_parts rfl
  · next d target buffer hu =>
    split
    · exact (held_cancelLoad s).carried
    · split
      · exact (held_idleUnit s).carried.congr rfl rfl
      · next htouch =>
        split
        · exact .of_parts rfl
        · next hpin =>
          split
          · exact .of_parts rfl
          · next hstore =>
            rw [not_not, inStore_iff] at hstore
            refine carried_write (fun h b hb1 hb2 => ?_) fun h => (held_idleUnit s).sound h
            have hfits := h.loads
            rw [hu] at hfits
            obtain ⟨-, -, -, -, hlen⟩ := hfits
            exact not_guards hstore (Bool.eq_false_of_not_eq_true htouch) (Bool.eq_false_of_not_eq_true hpin) hb1
              (by omega)

/-- Load Cancel (R49). -/
theorem carriesTables_loadCancel : CarriesTables loadCancelRule := fun payload s => by
  simp only [loadCancelRule]
  split
  · exact (held_idleUnit s).carried
  · exact .of_parts rfl
  · exact .of_parts rfl

/-! ### Streams (R51 to R54) -/

/-- Stream Open (R51). -/
theorem carriesTables_streamOpen : CarriesTables streamOpenRule := fun payload s => by
  simp only [streamOpenRule]
  split
  · exact .of_parts rfl
  · next d hd =>
    split
    · exact .of_parts rfl
    · next hcount =>
      split
      · exact .of_parts rfl
      · split
        · exact .of_parts rfl
        · next hspan =>
          split
          · exact .of_parts rfl
          · next htouch =>
            split
            · exact .of_parts rfl
            · next hpin =>
              exact (held_stream (fun h => ⟨loadableDescriptor_ne_zero hd, h.inSpan hspan, by dsimp only; omega, rfl⟩)
                (Bool.eq_false_of_not_eq_true htouch) (Bool.eq_false_of_not_eq_true hpin)).carried

/-- A stream that goes on after a full block keeps its target (R52). -/
theorem TablesSound.streamed {s : State} (h : TablesSound s) {d : Fin 64} {t : Span} {n m : Nat}
    (hu : s.loadUnit = .streaming d t n) (hm : m < t.count) (hblock : m % 256 = 0) :
    TablesSound { s with loadUnit := .streaming d t m } := by
  have hfits := h.loads
  have hreserved := h.reserved
  rw [hu] at hfits
  obtain ⟨hd, hstore, -, -⟩ := hfits
  rw [State.reservation, hu] at hreserved
  exact { h with loads := ⟨hd, hstore, hm, hblock⟩, reserved := hreserved }

/-- The next words of an open stream are not guarded (R41). -/
theorem TablesSound.stream_not_guards {s : State} (h : TablesSound s) {d : Fin 64} {t : Span} {n a : Nat}
    (hu : s.loadUnit = .streaming d t n) (ha1 : t.first ≤ a) (ha2 : a < t.first + t.count) : ¬ s.guards a := by
  have hr : t ∈ s.reservation := by
    rw [State.reservation, hu]
    rfl
  exact (not_guards_iff a).2 (h.reserved t hr a ha1 ha2)

/-- Stream Data (R52, R53). -/
theorem carriesTables_streamData : CarriesTables streamDataRule := fun payload s => by
  simp only [streamDataRule]
  split
  · exact .of_parts rfl
  · exact .of_parts rfl
  · next d target streamed hu =>
    split
    · exact .of_parts rfl
    · next ws _ =>
      split
      · exact .of_parts rfl
      · next hlen =>
        simp only [not_not, expectedBlock, Config.blockWords] at hlen
        have hclear : TablesSound s → ∀ b, target.first + streamed ≤ b →
            b < target.first + streamed + ws.length → ¬ s.guards b := fun h b hb1 hb2 => by
          have hfits := h.loads
          rw [hu] at hfits
          obtain ⟨-, -, hlt, -⟩ := hfits
          exact h.stream_not_guards hu (by omega) (by omega)
        split
        · exact .of_parts rfl
        · split
          · exact carried_write hclear fun h => (held_idleUnit s).sound h
          · next hleft =>
            simp only [Config.blockWords] at hleft
            refine carried_write hclear fun h => ?_
            have hfits := h.loads
            rw [hu] at hfits
            obtain ⟨-, -, -, hblock⟩ := hfits
            exact h.streamed hu (by omega) (by omega)

/-- Stream Cancel (R54). -/
theorem carriesTables_streamCancel : CarriesTables streamCancelRule := fun payload s => by
  simp only [streamCancelRule]
  split
  · exact (held_idleUnit s).carried
  · exact .of_parts rfl
  · exact .of_parts rfl

/-! ### Soft Reset (R170) -/

/-- Soft Reset releases the pins and closes the Load Unit. -/
theorem softReset_tables (s : State) : TablesCarried s (softReset s) := by
  refine (((held_landed s).trans (held_idleUnit _)).congr ?_).carried
  simp only [softReset, abortRecord]
  split <;> rfl

end Sys2Proof.Machine
end

section
/-! PROOFS. The tables a job latches, their validation, flags and pins (spec/02 R34 to R36, R40, spec/05 R86, R87). -/

namespace Sys2Proof.Machine

/-! ### The latched tables (R86, R87) -/

section
variable {s : State} {p : JobParams} {level : Fin 8}

/-- The tables latched, whatever their role (R86). -/
def Latched.tables (l : Latched) : List TableLatch := l.gains.map GainLatch.table ++ l.mesh.toList ++ l.tone.toList

/-- A table is latched as a gain surface, as the mesh or as the tone table. -/
theorem Latched.mem_tables {l : Latched} {t : TableLatch} :
    t ∈ l.tables ↔ (∃ g ∈ l.gains, g.table = t) ∨ l.mesh = some t ∨ l.tone = some t := by
  simp [Latched.tables]

/-- The numbers latched are those of the latched tables. -/
theorem Latched.selectors_eq (l : Latched) : l.selectors = l.tables.map TableLatch.selector := by
  simp [Latched.selectors, Latched.tables, Function.comp_def]

/-- The pins are those of the latched tables. -/
theorem Latched.pins_eq (l : Latched) : l.pins = l.tables.flatMap pinOf := by
  simp [Latched.pins, Latched.tables, List.flatMap_map]

/-- A latched table's pin: its words, when it is usable (R40). -/
theorem mem_pinOf {t : TableLatch} {x : Span} :
    x ∈ pinOf t ↔ (∃ h, t.outcome = .usable h) ∧ x = t.descriptor.words := by
  unfold pinOf
  cases t.outcome <;> simp

/-- The words pinned are those of the usable tables. -/
theorem Latched.mem_pins {l : Latched} {x : Span} :
    x ∈ l.pins ↔ ∃ t ∈ l.tables, (∃ h, t.outcome = .usable h) ∧ x = t.descriptor.words := by
  simp only [Latched.pins_eq, List.mem_flatMap, mem_pinOf]

/-- A level selects at most two gain-set entries, each of them used (R86). -/
theorem selectGains_bound (level : Fin 8) (es : List GainEntry) :
    (selectGains level es).length ≤ 2 ∧ ∀ e ∈ selectGains level es, e ∈ es := by
  fun_induction selectGains level es with
  | case1 => exact ⟨Nat.zero_le 2, fun _ h => h⟩
  | case2 a => exact ⟨Nat.le_succ 1, fun _ h => h⟩
  | case3 a b rest h => exact ⟨Nat.le_succ 1, by simp⟩
  | case4 a b rest h h' => exact ⟨le_refl 2, by simp⟩
  | case5 a b rest h h' ih => exact ⟨ih.1, fun e he => List.mem_cons_of_mem a (ih.2 e he)⟩

/-- Each latched table is latched for some role under the number of a descriptor that is not the null one (R86). -/
theorem mem_latchTables {t : TableLatch} (ht : t ∈ (latchTables s p level).tables) :
    ∃ role n, n ≠ 0 ∧ t = latchTable s role p n := by
  have hif : ∀ {role : TableRole} {n : Fin 64},
      (if n = 0 then none else some (latchTable s role p n)) = some t → n ≠ 0 ∧ t = latchTable s role p n := by
    intro role n h
    split at h
    · cases h
    · next hn =>
      cases h
      exact ⟨hn, rfl⟩
  rcases Latched.mem_tables.1 ht with ⟨g, hg, rfl⟩ | h | h
  · obtain ⟨e, he, rfl⟩ := List.mem_map.1 hg
    have hused := (selectGains_bound level (usedEntries p.gainSet)).2 e he
    exact ⟨.gain, e.selector, by simpa using (List.mem_filter.1 hused).2, rfl⟩
  · exact ⟨.mesh, p.meshSelector, hif h⟩
  · exact ⟨.tone, p.toneSelector, hif h⟩

/-- A job latches at most two gain surfaces, one mesh and one tone table. -/
theorem latchTables_length : (latchTables s p level).tables.length ≤ 4 := by
  have hgains : (latchTables s p level).gains.length ≤ 2 := by
    simpa [latchTables] using (selectGains_bound level (usedEntries p.gainSet)).1
  have hone : ∀ o : Option TableLatch, o.toList.length ≤ 1 := fun o => by cases o <;> simp
  have hmesh := hone (latchTables s p level).mesh
  have htone := hone (latchTables s p level).tone
  simp only [Latched.tables, List.length_append, List.length_map]
  omega

/-- A table has one pin at most. -/
theorem pinOf_length (t : TableLatch) : (pinOf t).length ≤ 1 := by
  unfold pinOf
  split <;> simp

/-- A job has at most four pins. -/
theorem latchTables_pins_length : (latchTables s p level).pins.length ≤ 4 := by
  rw [Latched.pins_eq, List.length_flatMap]
  have hsum := List.sum_le_card_nsmul ((latchTables s p level).tables.map fun t => (pinOf t).length) 1
    (by simpa using fun t _ => pinOf_length t)
  have := latchTables_length (s := s) (p := p) (level := level)
  simp only [List.length_map, smul_eq_mul, Nat.mul_one] at hsum
  omega

/-- A usable table's words are not reserved (R34, check 2). -/
theorem validate_usable_apart {role : TableRole} {ow oh : Nat} {d : Descriptor} {h : TableHeader}
    (hv : validate s role ow oh d = .usable h) : s.reservation.any d.words.overlaps = false := by
  unfold validate at hv
  split at hv
  · cases hv
  · split at hv
    · cases hv
    · next hr => exact Bool.eq_false_of_not_eq_true hr

/-- The words a job pins are a descriptor's, and none of them is reserved (R40, R41). -/
theorem latchTables_pins {x : Span} (hx : x ∈ (latchTables s p level).pins) :
    (∃ d, x = (pick s.descriptors d).words) ∧ s.reservation.any x.overlaps = false := by
  obtain ⟨t, ht, ⟨h, hu⟩, rfl⟩ := Latched.mem_pins.1 hx
  obtain ⟨role, n, -, rfl⟩ := mem_latchTables ht
  exact ⟨⟨n, rfl⟩, validate_usable_apart hu⟩

/-- The null descriptor is not latched. -/
theorem zero_not_mem_selectors : (0 : Fin 64) ∉ (latchTables s p level).selectors := by
  rw [Latched.selectors_eq, List.mem_map]
  rintro ⟨t, ht, hzero⟩
  obtain ⟨role, n, hn, rfl⟩ := mem_latchTables ht
  exact hn hzero

end

end Sys2Proof.Machine
end

section
/-! PROOFS. The engine carries the tables, and so does every row and every step (spec/02 R22, R29, R37 to R42). -/

namespace Sys2Proof.Machine

/-! ### The start of a job (R82 to R90) -/

/-- The accessed flags of latched descriptors set (R26). -/
theorem held_markAccessed {s : State} {ds : List (Fin 64)} (hnull : 0 ∉ ds) : TablesHeld s (s.markAccessed ds) := by
  rw [markAccessed_eq]
  refine held_accessed (fun d => ?_) ?_
  · rw [State.accessedBy, pick_tabulate]
    dsimp only
    split <;> rfl
  · simp [State.accessedBy, hnull]

/-- A record created (R140). -/
@[simp] theorem tableParts_createRecord (j : Job) (s : State) : (createRecord j s).tableParts = s.tableParts := by
  simp only [createRecord]
  split
  · rw [tableParts_raise]
    rfl
  · rfl

/-- A job skipped (R84). -/
@[simp] theorem tableParts_skipJob (j : Job) (n : RecordNumber) (s : State) :
    (skipJob j n s).tableParts = s.tableParts := by
  rw [skipJob, tableParts_settle, tableParts_releaseSource, tableParts_countView, tableParts_finalise,
    tableParts_updRecord]

/-- A job that faults (R89). -/
@[simp] theorem tableParts_faultJob (j : Job) (n : RecordNumber) (x : TableFailure) (s : State) :
    (faultJob j n x s).tableParts = s.tableParts := by
  rw [faultJob, tableParts_settle, tableParts_releaseSource, tableParts_raise, tableParts_setSticky,
    tableParts_countView, tableParts_finalise]

/-- The stages of a job begin: its pins join the list and the engine runs (R90). -/
theorem tableParts_beginStages (j : Job) (n : RecordNumber) (x : Fin 52) (l : Latched) (t : TableLatch) (m : Mesh)
    (s : State) :
    ∃ f, (beginStages j n x l t m s).tableParts
      = State.tableParts { s with pins := s.pins ++ l.pins, flight := some f } :=
  ⟨(beginStages j n x l t m s).flight.get rfl, rfl⟩

/-- The selected tables latched: their descriptors marked accessed, the usable ones pinned (R26, R40, R86). -/
theorem held_latched {s : State} (hidle : s.flight = none) (p : JobParams) (level : Fin 8) (f : Flight) :
    TablesHeld s { s.markAccessed (latchTables s p level).selectors with
      pins := s.pins ++ (latchTables s p level).pins, flight := some f } := by
  have hpins := held_pins (s := s) (ps := (latchTables s p level).pins) (f := f) hidle latchTables_pins_length
    (fun _ hx => (latchTables_pins hx).1) fun _ hx => (latchTables_pins hx).2
  refine (hpins.trans (held_markAccessed (zero_not_mem_selectors (s := s) (p := p) (level := level)))).congr ?_
  rw [markAccessed_eq, markAccessed_eq]
  rfl

/-- A job past the held test faults, or runs with its tables pinned (R85 to R90). -/
theorem latchJob_held {j : Job} {n : RecordNumber} {x : Fin 52} {s : State} (hidle : s.flight = none) :
    TablesHeld s (latchJob j n x s) := by
  have hmarked := held_markAccessed (s := s)
    (zero_not_mem_selectors (s := s) (p := (pick s.views j.view).params.job) (level := j.header.level))
  simp only [latchJob]
  split
  · exact hmarked.congr ((tableParts_faultJob ..).trans (tableParts_updRecord ..))
  · split
    · obtain ⟨f, hf⟩ := tableParts_beginStages j n x ..
      refine (held_latched hidle (pick s.views j.view).params.job j.header.level f).congr (hf.trans ?_)
      rw [markAccessed_eq]
      rfl
    · exact hmarked.congr ((tableParts_faultJob ..).trans (tableParts_updRecord ..))

/-- The engine's start of the head job (R82). -/
theorem startHead_held {s t : State} (h : startHead s = .ok t) : TablesHeld s t := by
  unfold startHead at h
  split at h
  · next j rest hidle _ =>
    have hrec : (createRecord j { s with jobs := rest }).tableParts = s.tableParts := tableParts_createRecord ..
    simp only [startJob] at h
    split at h
    · cases h
    · split at h <;> cases h
      · exact .of_parts ((tableParts_skipJob ..).trans hrec)
      · exact (TablesHeld.of_parts hrec).trans (latchJob_held (flight_none_congr hrec hidle))
  · cases h
    exact .of_parts rfl
  · cases h
    exact .of_parts rfl

/-! ### The end of a job and Engine Abort (R94, R95) -/

/-- The buffer's advance (R137, R138). -/
@[simp] theorem tableParts_advanceBuffer (v : Fin 16) (n : RecordNumber) (degraded : Bool) (s : State) :
    (advanceBuffer v n degraded s).tableParts = s.tableParts := by
  simp only [advanceBuffer]
  split
  · rfl
  · split
    · rw [tableParts_raise]
      rfl
    · rfl

/-- Forwarding selection (R146). -/
@[simp] theorem tableParts_selectRecord (f : Flight) (mark : SlotMark) (s : State) :
    (selectRecord f mark s).tableParts = s.tableParts := by
  simp only [selectRecord]
  split
  · rw [tableParts_offer]
    rfl
  · rfl

/-- The engine at rest, after a change that leaves the parts. -/
theorem landed_held {s t : State} (h : t.tableParts = s.tableParts) :
    TablesHeld s { t with pins := [], flight := none } :=
  (TablesHeld.of_parts h).trans (held_landed t)

/-- The end of a job releases the pins (R94). -/
theorem endJob_held (f : Flight) (s : State) : TablesHeld s (endJob f s) := by
  have hdone : ((completeRecord f (jobDegraded f s) s).releaseSource f.job.slot).tableParts = s.tableParts := by
    rw [tableParts_releaseSource, completeRecord, tableParts_countView, tableParts_finalise, tableParts_updRecord]
  refine (landed_held hdone).congr ?_
  rw [endJob, tableParts_settle, tableParts_updView, tableParts_selectRecord, tableParts_advanceBuffer]

/-- Engine Abort before the next start (R95). -/
theorem abortEngine_held (flush : Bool) (s : State) : TablesHeld s (abortEngine flush s) := by
  have hflight : TablesHeld s (abortFlight s) := by
    unfold abortFlight
    split
    · exact landed_held rfl
    · exact .of_parts rfl
  refine hflight.congr ?_
  rw [abortEngine, tableParts_foldl tableParts_settle]
  split
  · exact tableParts_removeJobs ..
  · rfl

/-- Engine Abort (R95). -/
theorem carriesTables_engineAbort : CarriesTables engineAbortRule := fun payload s => by
  simp only [engineAbortRule]
  split
  · exact .of_parts rfl
  · next flush _ =>
    split
    · exact .of_parts rfl
    · next t ht => exact ((abortEngine_held flush s).trans (startHead_held ht)).carried

section
variable {s t : State}

/-- JOB_END. -/
theorem exec_jobEnd_tables (h : exec .jobEnd s = .next t) : TablesCarried s t := by
  simp only [exec, execJobEnd] at h
  split at h
  · cases h
    exact .of_parts rfl
  · split at h
    · cases h
      exact .of_parts rfl
    · exact ((endJob_held _ s).trans (startHead_held (engineOutcome_next h))).carried

/-! ### Every row -/

/-- Every row but POWER_ON_RESET and STARTUP_SWEEP_END carries the tables. -/
theorem exec_tables {i : Instr} (hi : ∀ strap, i ≠ .powerOnReset strap) (hsweep : i ≠ .startupSweepEnd)
    (h : exec i s = .next t) : TablesCarried s t := by
  cases i with
  | powerOnReset strap => exact absurd rfl (hi strap)
  | startupSweepEnd => exact absurd rfl hsweep
  | frameStart c packet => exact .of_parts (exec_frameStart_tableParts h)
  | line c packet => exact .of_parts (exec_line_tableParts h)
  | frameEnd c packet => exact .of_parts (exec_frameEnd_tableParts h)
  | cameraPacketIgnored c packet =>
    cases h
    exact .of_parts rfl
  | downlinkPacket packet => exact .of_parts (exec_downlinkPacket_tableParts h)
  | unknownCommand => exact .of_parts (exec_unknownCommand_tableParts h)
  | broadcastIgnored => exact .of_parts (exec_broadcastIgnored_tableParts h)
  | identify => exact leavesTables_identify.carries.row h
  | getStatus => exact leavesTables_getStatus.carries.row h
  | clearStatus => exact leavesTables_clearStatus.carries.row h
  | readCounters => exact leavesTables_readCounters.carries.row h
  | setNoticeMask => exact leavesTables_setNoticeMask.carries.row h
  | softReset =>
    exact CarriesTables.broadcastRow (rule := softResetRule) (fun _ => softReset_tables) (fun _ => softReset_tables) h
  | setCamera => exact leavesTables_setCamera.carries.row h
  | cameraEnable => exact leavesTables_cameraEnable.carries.row h
  | setBlackLevel => exact leavesTables_setBlackLevel.carries.row h
  | writeDescriptor => exact carriesTables_writeDescriptor.row h
  | readDescriptor => exact carriesTables_readDescriptor.row h
  | clearAccessedDescriptor => exact carriesTables_clearAccessed.row h
  | lockDescriptor => exact (carriesTables_lock (next := lockNext) fun _ e => (Option.some.inj e).symm).row h
  | unlockDescriptor => exact (carriesTables_lock (next := unlockNext) fun _ e => nomatch e).row h
  | lockDownDescriptor => exact (carriesTables_lock (next := lockDownNext) fun _ e => (Option.some.inj e).symm).row h
  | setProtectionWindow => exact carriesTables_setWindow.row h
  | protectionLock => exact carriesTables_protectionLock.row h
  | loadOpen => exact carriesTables_loadOpen.row h
  | loadData => exact carriesTables_loadData.row h
  | loadCommit => exact carriesTables_loadCommit.row h
  | loadCancel => exact carriesTables_loadCancel.row h
  | streamOpen => exact carriesTables_streamOpen.row h
  | streamData => exact carriesTables_streamData.row h
  | streamCancel => exact carriesTables_streamCancel.row h
  | readTable => exact leavesTables_readTable.carries.row h
  | writeView => exact leavesTables_writeView.carries.row h
  | readView => exact leavesTables_readView.carries.row h
  | viewActivate => exact leavesTables_viewActivate.carries.row h
  | viewHold => exact leavesTables_viewHold.carries.row h
  | viewDisable => exact leavesTables_viewDisable.carries.row h
  | engineAbort => exact carriesTables_engineAbort.row h
  | setTimeTag =>
    exact leavesTables_setTimeTag.carries.broadcastRow (fun payload s => .of_parts (tableParts_setTimeTag payload s)) h
  | readRecords => exact leavesTables_readRecords.carries.row h
  | recallFrame => exact leavesTables_recallFrame.carries.row h
  | recallLatest => exact leavesTables_recallLatest.carries.row h
  | uplinkPause => exact leavesTables_uplinkPause.carries.row h
  | uplinkResume => exact leavesTables_uplinkResume.carries.row h
  | uplinkFlush => exact leavesTables_uplinkFlush.carries.row h
  | jobStart => exact (startHead_held (engineOutcome_next h)).carried
  | outputPixel => exact .of_parts (exec_outputPixel_tableParts h)
  | jobEnd => exact exec_jobEnd_tables h
  | timeTagTick =>
    cases h
    exact .of_parts rfl
  | relayByte b => exact .of_parts (exec_relayByte_tableParts h)
  | relayIdleTimeout => exact .of_parts (exec_relayIdleTimeout_tableParts h)
  | uplinkPortReady =>
    cases h
    exact .of_parts (tableParts_arbitrate s)

/-- The sweep's end writes the store and leaves the rest (R21, R169). -/
theorem exec_startupSweepEnd_tables (h : exec .startupSweepEnd s = .next t) :
    (TablesSound s → TablesSound t) ∧ LocksStand s t := by
  cases h
  split
  · exact ⟨fun h => { h with }, .of_eq rfl rfl⟩
  · exact ⟨fun h => h, .of_eq rfl rfl⟩

/-- A step that is no power-on reset and no sweep's end carries the tables. -/
theorem step_tables (hp : ∀ strap rest, s.pending ≠ .powerOnReset strap :: rest)
    (hsweep : ∀ rest, s.pending ≠ .startupSweepEnd :: rest) (h : step s = .next t) : TablesCarried s t := by
  cases hq : s.pending with
  | nil =>
    simp only [step, hq] at h
    cases h
    exact .of_parts rfl
  | cons i rest =>
    rw [step_cons hq] at h
    exact (exec_tables (fun strap e => hp strap rest (e ▸ hq)) (fun e => hsweep rest (e ▸ hq)) h).congr rfl rfl

end

/-- Settles O58: a power-on reset and the sweep's end leave sound tables whatever they write, and every other row
carries them. -/
theorem tablesKept : Obligations.TablesKept := by
  intro s t hs h
  refine ⟨?_, fun hp hsweep => (step_tables hp hsweep h).words hs⟩
  by_cases hp : ∃ strap rest, s.pending = .powerOnReset strap :: rest
  · obtain ⟨strap, rest, hq⟩ := hp
    rw [step_cons hq] at h
    cases h
    exact tablesSound_reset.congr rfl
  · by_cases hsweep : ∃ rest, s.pending = .startupSweepEnd :: rest
    · obtain ⟨rest, hq⟩ := hsweep
      rw [step_cons hq] at h
      exact (exec_startupSweepEnd_tables h).1 (hs.congr rfl)
    · exact (step_tables (fun strap rest hq => hp ⟨strap, rest, hq⟩) (fun rest hq => hsweep ⟨rest, hq⟩) h).sound hs

/-- Settles O18: the locks stand through every row that carries the tables, and through the sweep's end. -/
theorem locksKept : Obligations.LocksKept := by
  intro i s t hi h
  have hlocks : LocksStand s t := by
    by_cases hsweep : i = .startupSweepEnd
    · rw [hsweep] at h
      exact (exec_startupSweepEnd_tables h).2
    · exact (exec_tables hi hsweep h).locks
  exact ⟨hlocks.lockedDown, hlocks.window⟩

end Sys2Proof.Machine
end

section
/-! PROOFS. The checks of a latched table in their order, and the record flags of a job's tables (spec/02 R34 to R36,
spec/05 R87). -/

namespace Sys2Proof.Machine

/-! ### The checks of a latched table (R34) -/

/-- A field of a word, by division (R176). -/
theorem bits_eq (w : Word) (lo len : Nat) : bits w lo len = w.toNat / 2 ^ lo % 2 ^ len := by
  rw [bits, BitVec.extractLsb'_toNat, Nat.shiftRight_eq_div_pow]

section
variable {s : State} {d : Descriptor} {ow oh : Nat}

/-- Some word of the descriptor is reserved (R34, check 2). -/
theorem reserved_iff : s.reservation.any d.words.overlaps = true ↔
    ∃ t ∈ s.reservation, ∃ a, t.first ≤ a ∧ a < t.first + t.count ∧ d.base ≤ a ∧ a < d.base + d.span := by
  rw [Option.any_eq_true]
  refine exists_congr fun t => and_congr_right fun _ => (overlaps_iff d.words t).trans (exists_congr fun a => ?_)
  exact ⟨fun ⟨hd1, hd2, ht1, ht2⟩ => ⟨ht1, ht2, hd1, hd2⟩, fun ⟨ht1, ht2, hd1, hd2⟩ => ⟨hd1, hd2, ht1, ht2⟩⟩

/-- The table is not present (R34, check 1). -/
theorem validate_absent (role : TableRole) (hp : d.present = false) :
    validate s role ow oh d = .failed .absent := by
  rw [validate, hp]
  rfl

/-- A word of the table is reserved (R34, check 2). -/
theorem validate_loading (role : TableRole) (hp : d.present = true) (hr : s.reservation.any d.words.overlaps = true) :
    validate s role ow oh d = .failed .loading := by
  rw [validate, hp, hr]
  rfl

/-- The table's type, header, size and coverage (R34, checks 3 to 7), for a header that condition `c` admits. -/
theorem validate_checked {role : TableRole} {c : Prop} [Decidable c] {h : TableHeader} (hp : d.present = true)
    (hr : s.reservation.any d.words.overlaps = false)
    (hparse : parseHeader role (storeRead s.tableStore d.base) = if c then some h else none) :
    validate s role ow oh d =
      if d.type = role.type ∧ c ∧ h.size ≤ d.span ∧ headerCovers ow oh h = true then .usable h
      else .failed .format := by
  rw [validate, hp, hr, hparse]
  by_cases ht : d.type = role.type
  · by_cases hc : c <;> simp [ht, hc]
  · simp [ht]

end

/-- The header of a gain surface (R31). -/
theorem parseHeader_gain (w : Word) : parseHeader .gain w =
    if bits w 0 8 = 1 ∧ 2 ≤ bits w 8 7 ∧ bits w 8 7 ≤ 65 ∧ 2 ≤ bits w 15 7 ∧ bits w 15 7 ≤ 65 ∧ 3 ≤ bits w 22 4
      ∧ bits w 22 4 ≤ 8 then some (.gain (bits w 8 7) (bits w 15 7) (bits w 22 4)) else none := rfl

/-- The header of a mesh (R32). -/
theorem parseHeader_mesh (w : Word) : parseHeader .mesh w =
    if bits w 0 8 = 2 ∧ 2 ≤ bits w 8 8 ∧ bits w 8 8 ≤ 129 ∧ 2 ≤ bits w 16 8 ∧ bits w 16 8 ≤ 129 ∧ 2 ≤ bits w 24 3
      ∧ bits w 24 3 ≤ 6 then some (.mesh (bits w 8 8) (bits w 16 8) (bits w 24 3)) else none := rfl

/-- The header of a tone curve (R33). -/
theorem parseHeader_tone (w : Word) : parseHeader .tone w =
    if bits w 0 8 = 3 ∧ bits w 8 9 = 257 then some (.tone 257) else none := by
  by_cases h : bits w 8 9 = 257 <;> simp [parseHeader, h]

/-! ### The record flags of a job's tables (R36, R87) -/

/-- Each failure of each role has a flag of its own (R34). -/
theorem failureFlag_inj {r q : TableRole} {x y : TableFailure} :
    failureFlag r x = failureFlag q y ↔ r = q ∧ x = y := by
  cases r <;> cases q <;> cases x <;> cases y <;> decide

/-- No failure's flag is GAIN_COVERAGE. -/
theorem failureFlag_ne_coverage (r : TableRole) (x : TableFailure) : failureFlag r x ≠ .gainCoverage := by
  cases r <;> cases x <;> decide

/-- The flag of a failed table. -/
theorem mem_outcomeFlags {r : TableRole} {o : TableOutcome} {f : RecordFlag} :
    f ∈ outcomeFlags r o ↔ ∃ y, o = .failed y ∧ f = failureFlag r y := by
  cases o <;> simp [outcomeFlags]

/-- A usable gain surface. -/
theorem surfaceOf_eq_some {t : TableLatch} {u : Surface} : surfaceOf t = some u ↔
    ∃ gw gh cw, t.outcome = .usable (.gain gw gh cw) ∧ ⟨t.descriptor.base, gw, gh, cw⟩ = u := by
  unfold surfaceOf
  split
  · next gw gh cw h => simp [h]
  · next h =>
    refine ⟨nofun, ?_⟩
    rintro ⟨gw, gh, cw, hu, -⟩
    exact absurd hu (h gw gh cw)

/-- A gain surface is short of the source in columns or rows (R36). -/
theorem surfaceCovers_eq_false (t : Surface) (w h : Nat) : surfaceCovers t w h = false ↔
    (t.gw - 1) * 2 ^ t.cw < w - 1 ∨ (t.gh - 1) * 2 ^ t.cw < h - 1 := by
  rw [surfaceCovers, decide_eq_false_iff_not, not_and_or, Nat.not_le, Nat.not_le]

/-- GAIN_COVERAGE, by the usable gain surfaces that are short of the source (R36). -/
theorem mem_coverageFlags {gains : List GainLatch} {w h : Nat} {f : RecordFlag} :
    f ∈ coverageFlags gains w h ↔ f = .gainCoverage ∧ ∃ g ∈ gains, ∃ gw gh cw,
      g.table.outcome = .usable (.gain gw gh cw) ∧ ((gw - 1) * 2 ^ cw < w - 1 ∨ (gh - 1) * 2 ^ cw < h - 1) := by
  have hshort : ((gains.filterMap fun g => surfaceOf g.table).all fun t => surfaceCovers t w h) = false ↔
      ∃ g ∈ gains, ∃ gw gh cw, g.table.outcome = .usable (.gain gw gh cw)
        ∧ ((gw - 1) * 2 ^ cw < w - 1 ∨ (gh - 1) * 2 ^ cw < h - 1) := by
    rw [List.all_eq_false]
    simp only [List.mem_filterMap, Bool.not_eq_true, surfaceCovers_eq_false, surfaceOf_eq_some]
    constructor
    · rintro ⟨_, ⟨g, hg, gw, gh, cw, hu, rfl⟩, hcov⟩
      exact ⟨g, hg, gw, gh, cw, hu, hcov⟩
    · rintro ⟨g, hg, gw, gh, cw, hu, hcov⟩
      exact ⟨_, ⟨g, hg, gw, gh, cw, hu, rfl⟩, hcov⟩
  rw [← hshort, coverageFlags]
  split
  · next hall => simp [hall]
  · next hall => simp [hall]

/-- The mesh's failure: none selected, or the selected one's (R87). -/
theorem Latched.meshFailure_eq_some {l : Latched} {x : TableFailure} : l.meshFailure = some x ↔
    (l.mesh = none ∧ x = .absent) ∨ ∃ t, l.mesh = some t ∧ t.outcome = .failed x := by
  unfold Latched.meshFailure
  cases l.mesh with
  | none => simp [eq_comm]
  | some t => cases h : t.outcome <;> simp [h]

/-- The flags that validation and the coverage test put in the record (R87). -/
theorem Latched.mem_flags {l : Latched} {w h : Nat} {f : RecordFlag} : f ∈ l.flags w h ↔
    (∃ g ∈ l.gains, ∃ y, g.table.outcome = .failed y ∧ f = failureFlag .gain y)
    ∨ (∃ y, l.meshFailure = some y ∧ f = failureFlag .mesh y)
    ∨ (∃ t, l.tone = some t ∧ ∃ y, t.outcome = .failed y ∧ f = failureFlag .tone y)
    ∨ f ∈ coverageFlags l.gains w h := by
  simp only [Latched.flags, List.mem_append, List.mem_flatMap, mem_outcomeFlags, List.mem_map, Option.mem_toList,
    or_assoc, eq_comm (a := f)]

/-- A flag of the set that a list of flags makes. -/
theorem hasFlag_joinFlags_zero (fs : List RecordFlag) (f : RecordFlag) :
    hasFlag (joinFlags 0 fs) f = true ↔ f ∈ fs := by
  rw [hasFlag_joinFlags]
  simp [hasFlag]

section
variable (l : Latched) (w h : Nat)

/-- The failure flags of the gain surfaces. -/
theorem Latched.hasFlag_gain (x : TableFailure) : hasFlag (joinFlags 0 (l.flags w h)) (failureFlag .gain x) = true ↔
    ∃ g ∈ l.gains, g.table.outcome = .failed x := by
  rw [hasFlag_joinFlags_zero, Latched.mem_flags]
  simp [mem_coverageFlags, failureFlag_inj, failureFlag_ne_coverage]

/-- The failure flags of the mesh. -/
theorem Latched.hasFlag_mesh (x : TableFailure) : hasFlag (joinFlags 0 (l.flags w h)) (failureFlag .mesh x) = true ↔
    l.meshFailure = some x := by
  rw [hasFlag_joinFlags_zero, Latched.mem_flags]
  simp [mem_coverageFlags, failureFlag_inj, failureFlag_ne_coverage]

/-- The failure flags of the tone table. -/
theorem Latched.hasFlag_tone (x : TableFailure) : hasFlag (joinFlags 0 (l.flags w h)) (failureFlag .tone x) = true ↔
    ∃ t, l.tone = some t ∧ t.outcome = .failed x := by
  rw [hasFlag_joinFlags_zero, Latched.mem_flags]
  simp [mem_coverageFlags, failureFlag_inj, failureFlag_ne_coverage]

/-- GAIN_COVERAGE. -/
theorem Latched.hasFlag_coverage : hasFlag (joinFlags 0 (l.flags w h)) .gainCoverage = true ↔
    ∃ g ∈ l.gains, ∃ gw gh cw, g.table.outcome = .usable (.gain gw gh cw)
      ∧ ((gw - 1) * 2 ^ cw < w - 1 ∨ (gh - 1) * 2 ^ cw < h - 1) := by
  rw [hasFlag_joinFlags_zero, Latched.mem_flags]
  simp [mem_coverageFlags, (failureFlag_ne_coverage _ _).symm]

end

/-- The mesh is latched unless its selector is 0 (R87). -/
theorem latchTables_mesh_eq_none {s : State} {p : JobParams} {level : Fin 8} :
    (latchTables s p level).mesh = none ↔ p.meshSelector = 0 := by
  simp [latchTables]

/-- The descriptors latched: those of the gain surfaces, and the mesh's and the tone table's when they are selected. -/
theorem mem_latchTables_selectors {s : State} {p : JobParams} {level : Fin 8} (n : Fin 64) :
    n ∈ (latchTables s p level).selectors ↔ (∃ g ∈ (latchTables s p level).gains, g.table.selector = n)
      ∨ (n ≠ 0 ∧ (n = p.meshSelector ∨ n = p.toneSelector)) := by
  have hone : ∀ (role : TableRole) (m : Fin 64),
      (∃ t, (if m = 0 then none else some (latchTable s role p m)) = some t ∧ t.selector = n) ↔ n ≠ 0 ∧ n = m := by
    intro role m
    by_cases hm : m = 0
    · simp only [hm, if_true, reduceCtorEq, false_and, exists_false, false_iff, not_and]
      exact fun hn => hn
    · simp only [hm, if_false, Option.some.injEq, exists_eq_left', latchTable]
      exact ⟨fun e => ⟨e ▸ hm, e.symm⟩, fun e => e.2.symm⟩
  rw [Latched.selectors_eq, List.mem_map]
  simp only [Latched.mem_tables, or_and_right, exists_or, and_or_left]
  refine or_congr ⟨?_, ?_⟩ (or_congr (hone .mesh p.meshSelector) (hone .tone p.toneSelector))
  · rintro ⟨_, ⟨g, hg, rfl⟩, hn⟩
    exact ⟨g, hg, hn⟩
  · rintro ⟨g, hg, hn⟩
    exact ⟨_, ⟨g, hg, rfl⟩, hn⟩

/-- Settles O36: the checks role by role, then the latched tables with their flags and pins. -/
theorem tablesValidated : Obligations.TablesValidated := by
  refine ⟨fun s d ow oh => ⟨fun role hp => validate_absent role hp,
    fun role hp hr => validate_loading role hp (reserved_iff.2 hr), fun hp hr => ?_⟩, fun s p level width height =>
    ⟨rfl, rfl, rfl, mem_latchTables_selectors, Latched.hasFlag_gain _ _ _, fun x => ?_, Latched.hasFlag_tone _ _ _,
      Latched.hasFlag_coverage _ _ _, fun y => ?_⟩⟩
  · have hfree : s.reservation.any d.words.overlaps = false :=
      Bool.eq_false_of_not_eq_true fun h => hr (reserved_iff.1 h)
    refine ⟨?_, ?_, ?_⟩
    · rw [validate_checked hp hfree (parseHeader_gain _)]
      simp only [bits_eq, TableRole.type, TableHeader.size, headerCovers, and_assoc, and_true]
    · rw [validate_checked hp hfree (parseHeader_mesh _)]
      simp only [bits_eq, TableRole.type, TableHeader.size, headerCovers, meshCovers, decide_eq_true_eq, and_assoc]
    · rw [validate_checked hp hfree (parseHeader_tone _)]
      simp only [bits_eq, TableRole.type, TableHeader.size, headerCovers, and_assoc, and_true]
  · rw [Latched.hasFlag_mesh, Latched.meshFailure_eq_some, latchTables_mesh_eq_none]
  · rw [Latched.mem_pins]
    simp only [Latched.mem_tables]
    rfl

end Sys2Proof.Machine
end

section
/-! PROOFS. The descriptor commands and the protection window commands, by their payloads (spec/02, R22 to R29, R38,
R39). -/

namespace Sys2Proof.Machine

/-- No descriptor but 1 to 63 is usable. -/
theorem usableDescriptor_eq_none {n : Nat} : usableDescriptor n = none ↔ n = 0 ∨ 63 < n := by
  unfold usableDescriptor
  split
  · next h => simp [h]
  · next h =>
    rw [below?_eq_none]
    omega

/-! ### Write Descriptor (R23) -/

/-- A Write Descriptor payload read back (R171). -/
structure WriteDescriptorPayload (payload : List Byte) (n base limit gb tb pb : Nat) : Prop where
  number : num payload 0 1 = n
  base : num payload 1 4 = base
  limit : num payload 5 2 = limit
  granularity : num payload 7 1 = gb
  type : num payload 8 1 = tb
  present : num payload 9 1 = pb

/-- The payload the layout writes reads back. -/
theorem writeDescriptorPayload_layout {n base limit gb tb pb : Nat} (hn : n < 256) (hb : base < 4294967296)
    (hl : limit < 65536) (hg : gb < 256) (ht : tb < 256) (hp : pb < 256) :
    WriteDescriptorPayload (leBytes 1 n ++ leBytes 4 base ++ leBytes 2 limit ++ leBytes 1 gb ++ leBytes 1 tb
      ++ leBytes 1 pb) n base limit gb tb pb where
  number := leNat_leBytes (k := 1) hn
  base := leNat_leBytes (k := 4) hb
  limit := leNat_leBytes (k := 2) hl
  granularity := leNat_leBytes (k := 1) hg
  type := leNat_leBytes (k := 1) ht
  present := leNat_leBytes (k := 1) hp

/-- A descriptor as Write Descriptor leaves it (R23, step 4). -/
def Descriptor.written (x : Descriptor) (base limit : Nat) (g : Granularity) (ty : TableType) (present : Bool) :
    Descriptor :=
  { x with
    base := base, limit := limit, granularity := g, type := ty, present := present, accessed := false }

section
variable {payload : List Byte} {n base limit gb tb pb : Nat}

/-- Write Descriptor with a parameter out of its set (R23, step 1). -/
theorem writeDescriptorRule_badParam (hp : WriteDescriptorPayload payload n base limit gb tb pb)
    (hbad : n = 0 ∨ 63 < n ∨ 4095 < limit ∨ granularity? gb = none ∨ tableType? tb = none ∨ 1 < pb) (s : State) :
    writeDescriptorRule payload s = refuse s .badParam := by
  obtain ⟨rfl, -, rfl, rfl, rfl, rfl⟩ := hp
  simp only [writeDescriptorRule]
  split
  · next hd hg ht hsw =>
    have hd' : ¬ (num payload 0 1 = 0 ∨ 63 < num payload 0 1) := fun k =>
      nomatch (usableDescriptor_eq_none.2 k).symm.trans hd
    have hsw' : ¬ 1 < num payload 9 1 := fun k => nomatch (switch?_eq_none.2 k).symm.trans hsw
    have hlimit : 4095 < num payload 5 2 := by
      rcases hbad with k | k | k | k | k | k
      · exact absurd (.inl k) hd'
      · exact absurd (.inr k) hd'
      · exact k
      · cases k.symm.trans hg
      · cases k.symm.trans ht
      · exact absurd k hsw'
    exact if_pos hlimit
  · rfl

/-- Write Descriptor with every parameter in its set (R23, steps 2 to 4). -/
theorem writeDescriptorRule_inRange {d : Fin 64} {g : Granularity} {ty : TableType} {present : Bool}
    (hp : WriteDescriptorPayload payload d.val base limit gb tb pb) (hd : d ≠ 0) (hl : limit ≤ 4095)
    (hg : granularity? gb = some g) (ht : tableType? tb = some ty) (hsw : switch? pb = some present) (s : State) :
    writeDescriptorRule payload s =
      if (pick s.descriptors d).lock ≠ .unlocked then refuse s .descLocked
      else if base % 64 ≠ 0 ∨ ¬ ((pick s.descriptors d).written base limit g ty present).words.inStore then
        refuse s .descRange
      else accept (s.updDescriptor d fun x => x.written base limit g ty present) := by
  obtain ⟨hn, rfl, rfl, rfl, rfl, rfl⟩ := hp
  rw [writeDescriptorRule, hn, usableDescriptor_eq_some.2 ⟨rfl, hd⟩, hg, ht, hsw]
  dsimp only
  rw [if_neg (Nat.not_lt.2 hl)]
  exact if_congr Iff.rfl rfl (if_congr Iff.rfl rfl rfl)

end

/-- Settles O15, by R23's checks in their order. -/
theorem writeDescriptorWrites : Obligations.WriteDescriptorWrites := by
  intro s p rest n base limit gb tb pb hst hready hn hb hl hg ht hp hpayload
  have hpay := hpayload ▸ writeDescriptorPayload_layout hn hb hl hg ht hp
  have hexec : exec .writeDescriptor s
      = answerTo p (writeDescriptorRule p.payload { s with commandBuffer := rest }) :=
    runCommand_ready hst hready (by decide) (by rw [hpayload]; rfl) _
  rw [hexec]
  refine ⟨fun hbad => ?_, fun d g ty present hd hne hlimit hgran htype hpresent => ?_⟩
  · rw [writeDescriptorRule_badParam hpay hbad]
    rfl
  · subst hd
    have hsw : switch? pb = some present := by
      rw [hpresent]
      cases present <;> rfl
    rw [writeDescriptorRule_inRange hpay hne hlimit hgran htype hsw]
    refine ⟨fun hlock => ?_, fun hlock hrange => ?_, fun hlock hmul hspan => ?_⟩
    · rw [if_pos hlock]
      rfl
    · have hout : base % 64 ≠ 0
          ∨ ¬ ((pick s.descriptors d).written base limit g ty present).words.inStore = true := by
        rw [inStore_iff]
        cases g <;> exact hrange.imp_right Nat.not_le.2
      rw [if_neg (not_not.2 hlock), if_pos hout]
      rfl
    · have hin : ((pick s.descriptors d).written base limit g ty present).words.inStore = true := by
        rw [inStore_iff]
        cases g <;> exact hspan
      rw [if_neg (not_not.2 hlock), if_neg (not_or.2 ⟨not_not.2 hmul, not_not.2 hin⟩)]
      rfl

/-! ### Read Descriptor and Clear-Accessed Descriptor (R24, R25) -/

/-- A set of flags as a number, flag `i` in bit `i` (R171). -/
def flagSum {n : Nat} (f : Fin n → Bool) : Nat :=
  (List.finRange n).foldl (fun x i => x + if f i then 2 ^ i.val else 0) 0

/-- One more flag goes above the others. -/
theorem flagSum_succ {n : Nat} (f : Fin (n + 1) → Bool) :
    flagSum f = flagSum (fun i => f i.castSucc) + if f (Fin.last n) then 2 ^ n else 0 := by
  simp [flagSum, List.finRange_succ_last, List.foldl_map]

/-- A set of `n` flags takes `n` bits. -/
theorem flagSum_lt {n : Nat} (f : Fin n → Bool) : flagSum f < 2 ^ n := by
  induction n with
  | zero => simp [flagSum]
  | succ n ih =>
    have h := ih fun i => f i.castSucc
    rw [flagSum_succ, Nat.pow_succ]
    split <;> omega

/-- Bit `i` of a set of flags is flag `i`. -/
theorem testBit_flagSum {n : Nat} (f : Fin n → Bool) (i : Fin n) : (flagSum f).testBit i.val = f i := by
  induction n with
  | zero => exact i.elim0
  | succ n ih =>
    have hlt := flagSum_lt fun i => f i.castSucc
    rw [flagSum_succ, Nat.add_comm]
    refine i.lastCases ?_ fun i => ?_
    · cases hf : f (Fin.last n) <;> simp [Nat.testBit_two_pow_add_eq, Nat.testBit_lt_two_pow hlt]
    · rw [← ih (fun i => f i.castSucc) i, Fin.val_castSucc]
      split
      · exact Nat.testBit_two_pow_add_gt i.isLt _
      · rw [Nat.zero_add]

/-- The accessed flags are a set of 64 flags. -/
theorem accessedFlags_eq (ds : Vector Descriptor 64) : accessedFlags ds = flagSum fun d => (pick ds d).accessed := rfl

/-- A Read Descriptor's payload of the right layout, and what the rule answers to it (R24). -/
theorem readDescriptorRule_layout (d : Fin 64) (clear : Bool) (s : State) :
    readDescriptorRule (leBytes 1 d.val ++ [flagByte clear]) s =
      .reply (if clear then s.updDescriptor d fun x => { x with accessed := false } else s) .ok
        (descriptorData (pick s.descriptors d)) := by
  have hd : below? 64 (num (leBytes 1 d.val ++ [flagByte clear]) 0 1) = some d :=
    below?_eq_some.2 (num_front_byte (by omega) _).symm
  have hclear : switch? (num (leBytes 1 d.val ++ [flagByte clear]) 1 1) = some clear := switch?_flagByte clear
  rw [readDescriptorRule, hd, hclear]

/-- Read Descriptor past the descriptors (R24). -/
theorem readDescriptorRule_badParam {n : Nat} (h : n < 256) (hn : 63 < n) (rest : List Byte) (s : State) :
    readDescriptorRule (leBytes 1 n ++ rest) s = refuse s .badParam := by
  rw [readDescriptorRule, below?_eq_none.2 (by rw [num_front_byte h]; omega)]

/-- Settles O16: the flags are read before they are cleared. -/
theorem accessedFlagsRead : Obligations.AccessedFlagsRead := by
  intro s p rest hrun
  refine ⟨fun n clear hst hn hpayload => ?_, fun set hst hload hset hpayload => ?_⟩
  · have hexec : exec .readDescriptor s
        = answerTo p (readDescriptorRule p.payload { s with commandBuffer := rest }) := by
      have hlen : Command.readDescriptor.lengthFits p.payload = true := by rw [hpayload]; rfl
      refine (runCommand_started hst readDescriptorRule).trans ?_
      have hall := checked_always (payload := p.payload) (rule := readDescriptorRule)
        (s := { s with commandBuffer := rest }) (c := .readDescriptor) (.inl hrun) rfl
      rw [hall, if_pos hlen]
    rw [hexec, hpayload]
    refine ⟨fun hbad => by rw [readDescriptorRule_badParam hn hbad]; rfl, fun d hd => ?_⟩
    subst hd
    rw [readDescriptorRule_layout]
    cases clear <;> rfl
  · have hexec : exec .clearAccessedDescriptor s
        = answerTo p (clearAccessedRule p.payload { s with commandBuffer := rest }) :=
      runCommand_ready hst ⟨hrun, hload⟩ (by decide) (by rw [hpayload]; rfl) _
    have hnum : num p.payload 0 8 = set := hpayload ▸ leNat_leBytes (k := 8) hset
    refine ⟨accessedFlags s.descriptors, _, hexec, ?_, fun d => ?_, fun d => ?_, rfl⟩
    · rw [accessedFlags_eq]
      exact flagSum_lt _
    · rw [accessedFlags_eq]
      exact testBit_flagSum _ d
    · refine (pick_tabulate _ d).trans ?_
      rw [hnum]
      cases hbit : set.testBit d.val <;> simp

/-! ### Lock, Unlock and Lock Down Descriptor (R27 to R29) -/

section
variable {next : LockState → Option LockState} {s : State} {d : Fin 64}

/-- A lock command past the usable descriptors. -/
theorem lockRule_badParam {n : Nat} (h : n < 256) (hn : n = 0 ∨ 63 < n) :
    lockRule next (leBytes 1 n) s = refuse s .badParam := by
  have hnum : num (leBytes 1 n) 0 1 = n := leNat_leBytes (k := 1) h
  rw [lockRule, hnum, usableDescriptor_eq_none.2 hn]

/-- The descriptor a lock command's payload names. -/
theorem usableDescriptor_payload (hd : d ≠ 0) : usableDescriptor (num (leBytes 1 d.val) 0 1) = some d :=
  usableDescriptor_eq_some.2 ⟨(leNat_leBytes (k := 1) (by omega)).symm, hd⟩

/-- A lock command refused by the lock state. -/
theorem lockRule_refused (hd : d ≠ 0) (h : next (pick s.descriptors d).lock = none) :
    lockRule next (leBytes 1 d.val) s = refuse s .descLocked := by
  rw [lockRule, usableDescriptor_payload hd]
  dsimp only
  rw [h]

/-- A lock command that sets the lock state. -/
theorem lockRule_set (hd : d ≠ 0) {l : LockState} (h : next (pick s.descriptors d).lock = some l) :
    lockRule next (leBytes 1 d.val) s = .reply (s.updDescriptor d fun x => { x with lock := l }) .ok [l.code] := by
  rw [lockRule, usableDescriptor_payload hd]
  dsimp only
  rw [h]

/-- A lock command that leaves the lock state. -/
theorem lockRule_stands (next : LockState → Option LockState) (hd : d ≠ 0) {l : LockState}
    (hl : (pick s.descriptors d).lock = l) (h : next l = some l) :
    lockRule next (leBytes 1 d.val) s = .reply s .ok [l.code] := by
  subst hl
  rw [lockRule_set hd h, State.updDescriptor, upd_self _ _ _ rfl]

end

/-- Settles O17, by the command and the lock state it finds. -/
theorem lockCommands : Obligations.LockCommands := by
  intro s p rest n hready hn hpayload
  have hrun : ∀ {c : Command} (next : LockState → Option LockState), c ≠ .loadOpen ∧ c ≠ .streamOpen →
      c.payloadLength = some 1 → Started c p rest s →
      runCommand c (lockRule next) s = answerTo p (lockRule next (leBytes 1 n) { s with commandBuffer := rest }) := by
    intro c next ho hlen hst
    rw [runCommand_ready hst hready ho (by rw [Command.lengthFits, hlen, hpayload]; rfl), hpayload]
  have hlock : Started .lockDescriptor p rest s → exec .lockDescriptor s = _ := hrun lockNext (by decide) rfl
  have hunlock : Started .unlockDescriptor p rest s → exec .unlockDescriptor s = _ := hrun unlockNext (by decide) rfl
  have hdown : Started .lockDownDescriptor p rest s → exec .lockDownDescriptor s = _ :=
    hrun lockDownNext (by decide) rfl
  refine ⟨fun hbad => ⟨fun hst => ?_, fun hst => ?_, fun hst => ?_⟩, fun d hd hne => ?_⟩
  · rw [hlock hst, lockRule_badParam hn hbad]
    rfl
  · rw [hunlock hst, lockRule_badParam hn hbad]
    rfl
  · rw [hdown hst, lockRule_badParam hn hbad]
    rfl
  · subst hd
    refine ⟨fun hst => ?_, fun hst => ?_, fun hst => ?_⟩
    · rw [hlock hst]
      cases hl : (pick s.descriptors d).lock with
      | unlocked => rw [lockRule_set (s := { s with commandBuffer := rest }) hne (congrArg lockNext hl)]; rfl
      | locked => rw [lockRule_stands (s := { s with commandBuffer := rest }) lockNext hne hl rfl]; rfl
      | lockedDown => rw [lockRule_stands (s := { s with commandBuffer := rest }) lockNext hne hl rfl]; rfl
    · rw [hunlock hst]
      cases hl : (pick s.descriptors d).lock with
      | unlocked => rw [lockRule_stands (s := { s with commandBuffer := rest }) unlockNext hne hl rfl]; rfl
      | locked => rw [lockRule_set (s := { s with commandBuffer := rest }) hne (congrArg unlockNext hl)]; rfl
      | lockedDown => rw [lockRule_refused (s := { s with commandBuffer := rest }) hne (congrArg unlockNext hl)]; rfl
    · have hnext : ∀ l, lockDownNext l = some .lockedDown := fun l => by cases l <;> rfl
      rw [hdown hst, lockRule_set hne (hnext _)]
      rfl

/-! ### The protection window (R38, R39) -/

/-- The side codes (R171). -/
theorem side?_eq (n : Nat) : side? n = if n ≤ 1 then some (if n = 0 then .bottom else .top) else none := by
  match n with
  | 0 => rfl
  | 1 => rfl
  | n + 2 => rfl

/-- The switch codes (R171). -/
theorem switch?_eq (n : Nat) : switch? n = if n ≤ 1 then some (decide (n = 1)) else none := by
  match n with
  | 0 => rfl
  | 1 => rfl
  | n + 2 => rfl

section
variable {size side complement : Nat} {s : State}

/-- A Set Protection Window payload read back (R171). -/
theorem windowPayload_layout (hz : size < 256) (hs : side < 256) (hc : complement < 256) :
    let payload := leBytes 1 size ++ leBytes 1 side ++ leBytes 1 complement
    num payload 0 1 = size ∧ num payload 1 1 = side ∧ num payload 2 1 = complement :=
  ⟨leNat_leBytes (k := 1) hz, leNat_leBytes (k := 1) hs, leNat_leBytes (k := 1) hc⟩

/-- Set Protection Window with a parameter out of range (R38, step 1). -/
theorem setWindowRule_badParam (hz : size < 256) (hs : side < 256) (hc : complement < 256)
    (hbad : 7 < size ∨ 1 < side ∨ 1 < complement) :
    setWindowRule (leBytes 1 size ++ leBytes 1 side ++ leBytes 1 complement) s = refuse s .badParam := by
  obtain ⟨hsize, hside, hcomp⟩ := windowPayload_layout hz hs hc
  rw [setWindowRule, hsize, hside, hcomp]
  rcases hbad with h | h | h
  · rw [below?_eq_none.2 h]
  · rw [side?_eq, if_neg (Nat.not_le.2 h)]
    cases below? 8 size <;> rfl
  · rw [switch?_eq complement, if_neg (Nat.not_le.2 h)]
    cases below? 8 size <;> cases side? side <;> rfl

/-- Set Protection Window with its parameters in range (R38, steps 2 to 4). -/
theorem setWindowRule_inRange (z : Fin 8) (hs : side ≤ 1) (hc : complement ≤ 1) :
    setWindowRule (leBytes 1 z.val ++ leBytes 1 side ++ leBytes 1 complement) s =
      if s.window.locked then refuse s .protectedWords
      else if s.reservation.any
        (ProtectionWindow.touches ⟨z, if side = 0 then .bottom else .top, complement = 1, s.window.locked⟩)
      then refuse s .busy
      else accept { s with
        window := ⟨z, if side = 0 then .bottom else .top, complement = 1, s.window.locked⟩ } := by
  obtain ⟨hsize, hside, hcomp⟩ :=
    windowPayload_layout (size := z.val) (side := side) (complement := complement) (by omega) (by omega) (by omega)
  rw [setWindowRule, hsize, hside, hcomp, below?_eq_some.2 rfl, side?_eq, switch?_eq, if_pos hs, if_pos hc]

/-- The reservation holds a word that a window would protect. -/
theorem any_touches {w : ProtectionWindow} {o : Option Span} (h : ∃ r ∈ o, r.first + r.count ≤ 131072
    ∧ ∃ a, r.first ≤ a ∧ a < r.first + r.count ∧ w.protects a = true) : o.any w.touches = true := by
  obtain ⟨r, hr, hstore, hprot⟩ := h
  exact (Option.any_eq_true _ _).2 ⟨r, hr, (touches_iff w hstore).2 hprot⟩

/-- The reservation holds no word that a window would protect. -/
theorem not_any_touches {w : ProtectionWindow} {o : Option Span} (h : ∀ r ∈ o, r.first + r.count ≤ 131072
    ∧ ∀ a, r.first ≤ a → a < r.first + r.count → w.protects a = false) : ¬ o.any w.touches = true := by
  rw [Option.any_eq_true]
  rintro ⟨r, hr, htouch⟩
  obtain ⟨hstore, hclear⟩ := h r hr
  obtain ⟨a, ha1, ha2, hprot⟩ := (touches_iff w hstore).1 htouch
  exact Bool.false_ne_true ((hclear a ha1 ha2).symm.trans hprot)

end

/-- Settles O19, by R38's checks in their order. -/
theorem protectionWindowSet : Obligations.ProtectionWindowSet := by
  intro s p rest hready
  refine ⟨fun size side complement hst hz hs hc hpayload => ?_, fun hst hpayload => ?_⟩
  · have hexec : exec .setProtectionWindow s
        = answerTo p (setWindowRule p.payload { s with commandBuffer := rest }) :=
      runCommand_ready hst hready (by decide) (by rw [hpayload]; rfl) _
    rw [hexec, hpayload]
    refine ⟨fun hbad => by rw [setWindowRule_badParam hz hs hc hbad]; rfl, fun z hsize hside hcomp => ?_⟩
    subst hsize
    rw [setWindowRule_inRange z hside hcomp]
    refine ⟨fun hlocked => ?_, fun hfree hbusy => ?_, fun hfree hclear => ?_⟩
    · rw [if_pos hlocked]
      rfl
    · rw [if_neg (Bool.eq_false_iff.1 hfree)]
      exact (congrArg (answerTo p) (if_pos (any_touches hbusy))).trans rfl
    · rw [if_neg (Bool.eq_false_iff.1 hfree)]
      exact (congrArg (answerTo p) (if_neg (not_any_touches hclear))).trans rfl
  · have hexec : exec .protectionLock s = answerTo p (protectionLockRule p.payload { s with commandBuffer := rest }) :=
      runCommand_ready hst hready (by decide) (by rw [hpayload]; rfl) _
    exact hexec

end Sys2Proof.Machine
end

section
/-! PROOFS. The Load Unit's commands before their own rules, and patch loads (spec/03, R43 to R49). -/

namespace Sys2Proof.Machine

/-! ### The load-state check (R43) -/

/-- The commands that leave an open patch load open, in R43's list. -/
theorem runsWhileLoading_iff (c : Command) : c.runsWhileLoading = true ↔
    c ∈ [Command.loadData, .loadCommit, .loadCancel, .getStatus, .identify, .readDescriptor, .readView,
      .readTable, .readRecords, .readCounters, .softReset] := by
  cases c <;> decide

section
variable {c : Command} {p : Packet} {rest : List Packet} {s : State}

/-- A command that leaves an open patch load open proceeds in every load state. -/
theorem proceeds_always (hs : s.starting = false) (hc : c.runsWhileLoading = true) : c.Proceeds s := by
  have ho : c ≠ .loadOpen ∧ c ≠ .streamOpen := by
    constructor <;> rintro rfl <;> cases hc
  refine ⟨.inl hs, ?_⟩
  cases s.loadUnit with
  | idle => trivial
  | loading d t b => exact (runsWhileLoading_iff c).1 hc
  | streaming d t k => exact ho

/-- Every command proceeds in IDLE. -/
theorem proceeds_idle (hs : s.starting = false) (hu : s.loadUnit = .idle) : c.Proceeds s :=
  ⟨.inl hs, by rw [hu]; trivial⟩

/-- Every command but the two that open proceeds in STREAMING. -/
theorem proceeds_streaming {d : Fin 64} {t : Span} {k : Nat} (hs : s.starting = false)
    (hu : s.loadUnit = .streaming d t k) (ho : c ≠ .loadOpen ∧ c ≠ .streamOpen) : c.Proceeds s :=
  ⟨.inl hs, by rw [hu]; exact ho⟩

/-- A started command that proceeds and has the right length answers by its own rule. -/
theorem runCommand_proceeds (h : Started c p rest s) (hc : c.Proceeds s) (hl : c.lengthFits p.payload = true)
    (rule : List Byte → State → Answer) :
    runCommand c rule s = answerTo p (rule p.payload { s with commandBuffer := rest }) := by
  have hchecked := checked_proceeds (payload := p.payload) (rule := rule) (s := { s with commandBuffer := rest }) hc
  rw [runCommand_started h, hchecked, if_pos hl]

/-- In LOADING a command outside R43's list is refused SEQUENCE and the load is cancelled. -/
theorem checked_cancelLoad {d : Fin 64} {t : Span} {b : List Word} (hs : s.starting = false)
    (hu : s.loadUnit = .loading d t b) (hc : c.runsWhileLoading = false) (payload : List Byte)
    (rule : List Byte → State → Answer) : checked c payload rule s = refuse s.cancelLoad .sequence := by
  simp [checked, loadStateCheck, hs, hu, hc, refuse]

/-- In STREAMING Load Open and Stream Open are refused BUSY. -/
theorem checked_busy {d : Fin 64} {t : Span} {k : Nat} (hs : s.starting = false)
    (hu : s.loadUnit = .streaming d t k) (hc : c = .loadOpen ∨ c = .streamOpen) (payload : List Byte)
    (rule : List Byte → State → Answer) : checked c payload rule s = refuse s .busy := by
  simp [checked, loadStateCheck, hs, hu, hc]

/-- The row of each command of the interpreter, once started, answers what the checks and a rule of its own answer. -/
theorem exec_started {i : Instr} (hi : i.command? = some c) (h : Started c p rest s) :
    ∃ rule, exec i s = answerTo p (checked c p.payload rule { s with commandBuffer := rest }) := by
  have hbroadcast : ∀ rule effect, runBroadcastable c rule effect s = runCommand c rule s := fun rule effect => by
    simp [runBroadcastable, h.buffer, h.addressed]
  cases i with
  | softReset => cases hi; exact ⟨softResetRule, (hbroadcast _ fun _ => softReset).trans (runCommand_started h _)⟩
  | setTimeTag => cases hi; exact ⟨setTimeTagRule, (hbroadcast _ setTimeTag).trans (runCommand_started h _)⟩
  | _ => cases hi <;> exact ⟨_, runCommand_started h _⟩

/-- In LOADING every row of a command outside R43's list cancels the load (R44). -/
theorem exec_cancelLoad {i : Instr} {d : Fin 64} {t : Span} {b : List Word} (hi : i.command? = some c)
    (h : Started c p rest s) (hs : s.starting = false) (hu : s.loadUnit = .loading d t b)
    (hc : c.runsWhileLoading = false) :
    exec i s = .next { s.answered p rest .sequence [] with
      loadUnit := .idle, sticky := withBit s.sticky StickyFlag.loadSequence.bit } := by
  obtain ⟨rule, hexec⟩ := exec_started hi h
  rw [hexec, checked_cancelLoad (s := { s with commandBuffer := rest }) hs hu hc]
  rfl

/-- In STREAMING the rows of Load Open and Stream Open are refused BUSY. -/
theorem exec_busy {i : Instr} {d : Fin 64} {t : Span} {k : Nat} (hi : i.command? = some c) (h : Started c p rest s)
    (hs : s.starting = false) (hu : s.loadUnit = .streaming d t k) (hc : c = .loadOpen ∨ c = .streamOpen) :
    exec i s = .next (s.answered p rest .busy []) := by
  obtain ⟨rule, hexec⟩ := exec_started hi h
  rw [hexec, checked_busy (s := { s with commandBuffer := rest }) hs hu hc]
  rfl

end

/-! ### Words of a payload (R171) -/

/-- Whole words take four bytes each. -/
theorem length_of_payloadWords {payload : List Byte} {ws : List Word} (h : payloadWords payload = some ws) :
    payload.length = 4 * ws.length := by
  induction payload using payloadWords.induct generalizing ws with
  | case1 => cases h; rfl
  | case2 a b c d rest ih =>
    rw [payloadWords, Option.map_eq_some_iff] at h
    obtain ⟨vs, hvs, rfl⟩ := h
    have hlen := ih hvs
    simp only [List.length_cons]
    omega
  | case3 payload hnil hcons =>
    rw [payloadWords] at h
    · cases h
    · exact hnil
    · exact hcons

/-- A payload of another length than `n` words does not hold `n` words. -/
theorem payloadWords_ne_length {payload : List Byte} {n : Nat} (h : payload.length ≠ 4 * n) :
    payloadWords payload = none ∨ ∃ ws, payloadWords payload = some ws ∧ ws.length ≠ n := by
  cases hw : payloadWords payload with
  | none => exact .inl rfl
  | some ws => exact .inr ⟨ws, rfl, fun e => h (e ▸ length_of_payloadWords hw)⟩

/-! ### Load Data (R46) -/

section
variable {s : State} {d : Fin 64} {target : Span} {buffer : List Word} {payload : List Byte}

/-- With no load open the two commands of a load are refused SEQUENCE. -/
theorem loadDataRule_nothingOpen (h : s.noPatchLoad) (payload : List Byte) :
    loadDataRule payload s = nothingOpen s := by
  cases hu : s.loadUnit with
  | loading d t b => exact absurd hu (h d t b)
  | idle => rw [loadDataRule, hu]
  | streaming d t k => rw [loadDataRule, hu]

/-- A payload that is empty or no whole number of words leaves the load open. -/
theorem loadDataRule_badLength (hu : s.loadUnit = .loading d target buffer)
    (h : payload = [] ∨ payload.length % 4 ≠ 0) : loadDataRule payload s = refuse s .badLength := by
  rw [loadDataRule, hu]
  cases hw : payloadWords payload with
  | none => rfl
  | some ws =>
    have hlen := length_of_payloadWords hw
    have hempty : payload.length = 0 := by
      rcases h with rfl | h
      · rfl
      · omega
    have hws : ws = [] := List.eq_nil_of_length_eq_zero (by omega)
    rw [hws]

/-- Words in LOADING: past the count they cancel the load, and otherwise they join the buffer. -/
theorem loadDataRule_words (hu : s.loadUnit = .loading d target buffer) {ws : List Word}
    (hp : payload = ws.flatMap fun w => leBytes 4 w.toNat) (hne : ws ≠ []) :
    loadDataRule payload s =
      if target.count < buffer.length + ws.length then refuse s.cancelLoad .sequence
      else .reply { s with loadUnit := .loading d target (buffer ++ ws) } .ok
        (leBytes 2 (buffer.length + ws.length)) := by
  cases ws with
  | nil => exact absurd rfl hne
  | cons w ws =>
    rw [loadDataRule, hu, hp, payloadWords_flatMap, ← List.length_append]

variable {p : Packet} {rest : List Packet}

/-- Load Data answers by its own rule in every load state. -/
theorem exec_loadData (h : Started .loadData p rest s) (hs : s.starting = false) :
    exec .loadData s = answerTo p (loadDataRule p.payload { s with commandBuffer := rest }) :=
  runCommand_proceeds h (proceeds_always hs rfl) rfl _

/-- Words past the count cancel the load (R44). -/
theorem exec_loadData_overlong (h : Started .loadData p rest s) (hs : s.starting = false)
    (hu : s.loadUnit = .loading d target buffer) {ws : List Word}
    (hp : p.payload = ws.flatMap fun w => leBytes 4 w.toNat) (hne : ws ≠ [])
    (hlong : target.count < buffer.length + ws.length) :
    exec .loadData s = .next { s.answered p rest .sequence [] with
      loadUnit := .idle, sticky := withBit s.sticky StickyFlag.loadSequence.bit } := by
  rw [exec_loadData h hs, loadDataRule_words (s := { s with commandBuffer := rest }) hu hp hne, if_pos hlong]
  rfl

end

/-- Settles O22, by the load state and the words of the payload. -/
theorem loadDataAppends : Obligations.LoadDataAppends := by
  intro s p rest hst hs
  refine ⟨fun d target buffer hu => ⟨fun hbad => ?_, fun ws hp hne _ => ⟨?_, fun hfits => ?_⟩⟩, fun hno => ?_⟩
  · rw [exec_loadData hst hs, loadDataRule_badLength (s := { s with commandBuffer := rest }) hu hbad]
    rfl
  · exact exec_loadData_overlong hst hs hu hp hne
  · rw [exec_loadData hst hs, loadDataRule_words (s := { s with commandBuffer := rest }) hu hp hne,
      if_neg (Nat.not_lt.2 hfits)]
    rfl
  · rw [exec_loadData hst hs, loadDataRule_nothingOpen (s := { s with commandBuffer := rest }) hno]
    rfl

/-! ### Load Commit (R47) -/

section
variable {s : State} {d : Fin 64} {target : Span} {buffer : List Word} {payload : List Byte}

/-- With no load open nothing can be committed. -/
theorem loadCommitRule_nothingOpen (h : s.noPatchLoad) (payload : List Byte) :
    loadCommitRule payload s = nothingOpen s := by
  cases hu : s.loadUnit with
  | loading d t b => exact absurd hu (h d t b)
  | idle => rw [loadCommitRule, hu]
  | streaming d t k => rw [loadCommitRule, hu]

/-- The checks of a full commit in their order, and its write. -/
theorem loadCommitRule_full (hu : s.loadUnit = .loading d target buffer) (hlen : buffer.length = target.count)
    (hstore : target.first + target.count ≤ 131072) (payload : List Byte) :
    loadCommitRule payload s =
      if s.window.touches target then refuse { s.setSticky .loadRefused with loadUnit := .idle } .protectedWords
      else if s.pinned target then refuse s .regionPinned
      else .reply { s with tableStore := storeWriteAll s.tableStore target.first buffer, loadUnit := .idle } .ok
        (leBytes 4 target.first ++ leBytes 2 target.count) := by
  rw [loadCommitRule, hu]
  dsimp only
  rw [if_neg hlen.ge.not_gt, if_neg (not_not.2 ((inStore_iff target).2 hstore))]

/-- A short commit cancels the load, wherever its target lies. -/
theorem loadCommitRule_short (hu : s.loadUnit = .loading d target buffer) (h : buffer.length < target.count)
    (payload : List Byte) : loadCommitRule payload s = refuse s.cancelLoad .incomplete := by
  rw [loadCommitRule, hu]
  exact if_pos h

variable {p : Packet} {rest : List Packet}

/-- Load Commit answers by its own rule in every load state. -/
theorem exec_loadCommit (h : Started .loadCommit p rest s) (hs : s.starting = false) (hp : p.payload = []) :
    exec .loadCommit s = answerTo p (loadCommitRule p.payload { s with commandBuffer := rest }) :=
  runCommand_proceeds h (proceeds_always hs rfl) (by rw [hp]; rfl) _

/-- A short commit cancels the load (R44). -/
theorem exec_loadCommit_short (h : Started .loadCommit p rest s) (hs : s.starting = false) (hp : p.payload = [])
    (hu : s.loadUnit = .loading d target buffer) (hshort : buffer.length < target.count) :
    exec .loadCommit s = .next { s.answered p rest .incomplete [] with
      loadUnit := .idle, sticky := withBit s.sticky StickyFlag.loadSequence.bit } := by
  rw [exec_loadCommit h hs hp, loadCommitRule_short (s := { s with commandBuffer := rest }) hu hshort]
  rfl

end

/-- Settles O3: the check of the load state cancels the load, or Load Data's or Load Commit's own rule does. -/
theorem patchLoadCancelled : Obligations.PatchLoadCancelled := by
  intro s p rest d target buffer hs hu
  refine ⟨fun i c hi hc hst => ?_, fun ws hst hp hne _ => exec_loadData_overlong hst hs hu hp hne,
    fun hst hp => exec_loadCommit_short hst hs hp hu⟩
  exact exec_cancelLoad hi hst hs hu (Bool.eq_false_iff.2 fun h => hc ((runsWhileLoading_iff c).1 h))

/-- Settles O23, by R47's checks in their order and the run of words written. -/
theorem loadCommitWrites : Obligations.LoadCommitWrites := by
  intro s p rest hst hs hp
  refine ⟨fun hno => ?_, fun d target buffer hu hstore hcanon => ?_⟩
  · rw [exec_loadCommit hst hs hp, loadCommitRule_nothingOpen (s := { s with commandBuffer := rest }) hno]
    rfl
  · intro guarded pinned
    refine ⟨exec_loadCommit_short hst hs hp hu, ?_⟩
    have hguarded : guarded ↔ s.window.touches target = true := (touches_iff s.window hstore).symm
    have hpinned : pinned ↔ s.pinned target = true := (pinned_iff s target).symm
    have hexec := fun hlen => (exec_loadCommit hst hs hp).trans
      (congrArg (answerTo p) (loadCommitRule_full (s := { s with commandBuffer := rest }) hu hlen hstore p.payload))
    rw [hguarded, hpinned]
    refine ⟨fun hlen ht => ?_, fun hlen ht hpin => ?_, fun hlen ht hpin => ?_⟩
    · rw [hexec hlen, if_pos ht]
      rfl
    · rw [hexec hlen, if_neg ht]
      exact (congrArg (answerTo p) (if_pos hpin)).trans rfl
    · rw [hexec hlen, if_neg ht]
      refine ⟨_, congrArg (answerTo p) (if_neg hpin), fun a => ?_, rfl⟩
      exact (storeRead_storeWriteAll hcanon (by rw [hlen]; exact hstore) a).trans (by rw [hlen])

end Sys2Proof.Machine
end

section
/-! PROOFS. The commands that name words through a descriptor, the stream commands and Load Cancel (spec/03, R45, R49
to R56). -/

namespace Sys2Proof.Machine

/-! ### A descriptor, an offset and a count (R45, R51, R56) -/

/-- A payload of a descriptor number, an offset and a count of `k` bytes read back (R171). -/
structure RangePayload (payload : List Byte) (k n offset count : Nat) : Prop where
  number : num payload 0 1 = n
  offset : num payload 1 4 = offset
  count : num payload 5 k = count

/-- The payload the layout writes reads back. -/
theorem rangePayload_layout {n offset count : Nat} (k : Nat) (hn : n < 256) (ho : offset < 4294967296)
    (hc : count < 256 ^ k) : RangePayload (leBytes 1 n ++ leBytes 4 offset ++ leBytes k count) k n offset count where
  number := leNat_leBytes (k := 1) hn
  offset := leNat_leBytes (k := 4) ho
  count := by
    have htake : (leBytes k count).take k = leBytes k count := List.take_of_length_le (leBytes_length k count).le
    exact (congrArg leNat htake).trans (leNat_leBytes hc)

/-- No load or stream may name descriptor 0, one above 63 or one of type NONE. -/
theorem loadableDescriptor_eq_none {s : State} {n : Nat} : loadableDescriptor s n = none ↔
    n = 0 ∨ 63 < n ∨ ∃ d : Fin 64, d.val = n ∧ (pick s.descriptors d).type = .untyped := by
  rw [loadableDescriptor, Option.filter_eq_none_iff]
  constructor
  · intro h
    by_cases hn : n = 0 ∨ 63 < n
    · exact hn.imp_right .inl
    · have hd : usableDescriptor n = some ⟨n, by omega⟩ :=
        usableDescriptor_eq_some.2 ⟨rfl, fun e => hn (.inl (congrArg Fin.val e))⟩
      exact .inr (.inr ⟨_, rfl, by simpa using h _ hd⟩)
  · rintro h d hd
    obtain ⟨rfl, hne⟩ := usableDescriptor_eq_some.1 hd
    rcases h with h | h | ⟨e, he, htype⟩
    · exact absurd (Fin.ext h) hne
    · omega
    · simp [← Fin.ext he, htype]

/-- A load or stream may name any other descriptor. -/
theorem loadableDescriptor_of_typed {s : State} {d : Fin 64} (hne : d ≠ 0)
    (htype : (pick s.descriptors d).type ≠ .untyped) : loadableDescriptor s d.val = some d := by
  rw [loadableDescriptor, usableDescriptor_eq_some.2 ⟨rfl, hne⟩]
  simp [htype]

/-- The first check of Load Open and Stream Open: the descriptor, or what they check beside it. -/
theorem loadableDescriptor_none_or {s : State} {n : Nat} {q : Prop}
    (h : n = 0 ∨ 63 < n ∨ (∃ d : Fin 64, d.val = n ∧ (pick s.descriptors d).type = .untyped) ∨ q) :
    loadableDescriptor s n = none ∨ q := by
  rw [loadableDescriptor_eq_none]
  simpa only [or_assoc] using h

/-! ### Load Open (R45) -/

section
variable {s : State} {payload : List Byte} {n offset count : Nat}

/-- Load Open with a parameter out of range. -/
theorem loadOpenRule_badParam (hp : RangePayload payload 2 n offset count)
    (hbad : loadableDescriptor s n = none ∨ count < 1 ∨ 256 < count) :
    loadOpenRule payload s = refuse s .badParam := by
  obtain ⟨rfl, -, rfl⟩ := hp
  rw [loadOpenRule]
  cases hd : loadableDescriptor s (num payload 0 1) with
  | none => rfl
  | some d => exact if_pos (hbad.resolve_left (by simp [hd]))

/-- Load Open with its parameters in range. -/
theorem loadOpenRule_inRange {d : Fin 64} (hp : RangePayload payload 2 d.val offset count)
    (hd : loadableDescriptor s d.val = some d) (hone : 1 ≤ count) (hmax : count ≤ 256) :
    loadOpenRule payload s =
      if (pick s.descriptors d).lock ≠ .unlocked then refuse s .descLocked
      else if (pick s.descriptors d).span < offset + count then refuse s .limit
      else .reply { s with loadUnit := .loading d ⟨(pick s.descriptors d).base + offset, count⟩ [] } .ok
        (leBytes 4 ((pick s.descriptors d).base + offset) ++ leBytes 2 count) := by
  obtain ⟨hn, rfl, rfl⟩ := hp
  rw [loadOpenRule, hn, hd]
  exact if_neg (by omega)

end

/-- Settles O21, by the load state and R45's checks in their order. -/
theorem loadOpened : Obligations.LoadOpened := by
  intro s p rest n offset count hst hs hn ho hc hpayload
  have hpay := hpayload ▸ rangePayload_layout 2 hn ho hc
  refine ⟨fun d t b hu => exec_cancelLoad rfl hst hs hu rfl, fun d t k hu => ?_, fun hu => ?_⟩
  · exact exec_busy rfl hst hs hu (.inl rfl)
  · have hexec : exec .loadOpen s = answerTo p (loadOpenRule p.payload { s with commandBuffer := rest }) :=
      runCommand_proceeds hst (proceeds_idle hs hu) (by rw [hpayload]; rfl) _
    rw [hexec]
    refine ⟨fun hbad => ?_, fun d hd hne htype hone hmax => ?_⟩
    · rw [loadOpenRule_badParam (s := { s with commandBuffer := rest }) hpay (loadableDescriptor_none_or hbad)]
      rfl
    · subst hd
      rw [loadOpenRule_inRange (s := { s with commandBuffer := rest }) hpay (loadableDescriptor_of_typed hne htype)
        hone hmax]
      refine ⟨fun hlock => ?_, fun hlock hlimit => ?_, fun hlock hspan => ?_⟩
      · rw [if_pos hlock]
        rfl
      · rw [if_neg (not_not.2 hlock), if_pos hlimit]
        rfl
      · rw [if_neg (not_not.2 hlock), if_neg (Nat.not_lt.2 hspan)]
        rfl

/-! ### Read Table (R56) -/

section
variable {s : State} {payload : List Byte} {n offset count : Nat}

/-- Read Table with a parameter out of range. -/
theorem readTableRule_badParam (hp : RangePayload payload 1 n offset count)
    (hbad : n = 0 ∨ 63 < n ∨ count < 1 ∨ 64 < count) : readTableRule payload s = refuse s .badParam := by
  obtain ⟨rfl, -, rfl⟩ := hp
  rw [← or_assoc, ← usableDescriptor_eq_none] at hbad
  rw [readTableRule]
  cases hd : usableDescriptor (num payload 0 1) with
  | none => rfl
  | some d => exact if_pos (hbad.resolve_left (by simp [hd]))

/-- Read Table with its parameters in range: past the span it is refused, and inside it the words are the store's. -/
theorem readTableRule_inRange {d : Fin 64} (hp : RangePayload payload 1 d.val offset count) (hne : d ≠ 0)
    (hone : 1 ≤ count) (hmax : count ≤ 64)
    (hstore : (pick s.descriptors d).base + (pick s.descriptors d).span ≤ 131072) :
    readTableRule payload s =
      if (pick s.descriptors d).span < offset + count then refuse s .limit
      else .reply s .ok ((List.range count).flatMap fun m =>
        leBytes 4 (storeRead s.tableStore ((pick s.descriptors d).base + offset + m)).toNat) := by
  obtain ⟨hn, rfl, rfl⟩ := hp
  rw [readTableRule, hn, usableDescriptor_eq_some.2 ⟨rfl, hne⟩]
  dsimp only
  rw [if_neg (by omega)]
  refine ite_congr rfl (fun _ => rfl) fun hspan => ?_
  rw [if_neg (not_not.2 ((inStore_iff _).2 (by dsimp only; omega))), storeReadAll_eq, List.flatMap_map]

end

/-- Settles O27, by R56's checks in their order. -/
theorem readTableReturns : Obligations.ReadTableReturns := by
  intro s p rest n offset count hst hs hn ho hc hpayload
  have hpay := hpayload ▸ rangePayload_layout 1 hn ho hc
  have hexec : exec .readTable s = answerTo p (readTableRule p.payload { s with commandBuffer := rest }) :=
    runCommand_proceeds hst (proceeds_always hs rfl) (by rw [hpayload]; rfl) _
  rw [hexec]
  refine ⟨fun hbad => ?_, fun d hd hne hone hmax hstore => ?_⟩
  · rw [readTableRule_badParam hpay hbad]
    rfl
  · subst hd
    rw [readTableRule_inRange (s := { s with commandBuffer := rest }) hpay hne hone hmax hstore]
    refine ⟨fun hlimit => ?_, fun hspan => ?_⟩
    · rw [if_pos hlimit]
      rfl
    · rw [if_neg (Nat.not_lt.2 hspan)]
      rfl

/-! ### Stream Open (R51) -/

section
variable {s : State} {payload : List Byte} {n offset total : Nat}

/-- Stream Open with a parameter out of range. -/
theorem streamOpenRule_badParam (hp : RangePayload payload 4 n offset total)
    (hbad : loadableDescriptor s n = none ∨ offset % 256 ≠ 0 ∨ total < 1 ∨ 131072 < total) :
    streamOpenRule payload s = refuse s .badParam := by
  obtain ⟨rfl, rfl, rfl⟩ := hp
  rw [streamOpenRule]
  cases hd : loadableDescriptor s (num payload 0 1) with
  | none => rfl
  | some d => exact if_pos (hbad.resolve_left (by simp [hd]))

/-- Stream Open with its parameters in range. -/
theorem streamOpenRule_inRange {d : Fin 64} (hp : RangePayload payload 4 d.val offset total)
    (hd : loadableDescriptor s d.val = some d) (hblock : offset % 256 = 0) (hone : 1 ≤ total)
    (hmax : total ≤ 131072) :
    streamOpenRule payload s =
      let target : Span := ⟨(pick s.descriptors d).base + offset, total⟩
      if (pick s.descriptors d).lock ≠ .unlocked then refuse s .descLocked
      else if (pick s.descriptors d).span < offset + total then refuse s .limit
      else if s.window.touches target then refuse (s.setSticky .loadRefused) .protectedWords
      else if s.pinned target then refuse s .regionPinned
      else .reply { s with loadUnit := .streaming d target 0 } .ok
        (leBytes 4 target.first ++ leBytes 4 total ++ leBytes 2 ((total + 255) / 256)) := by
  obtain ⟨hn, rfl, rfl⟩ := hp
  rw [streamOpenRule, hn, hd]
  exact if_neg (by simp only [Config.blockWords, Config.storeWords]; omega)

end

/-- Settles O25, by the load state and R51's checks in their order. -/
theorem streamOpened : Obligations.StreamOpened := by
  intro s p rest n offset total hst hs hn ho ht hpayload
  have hpay := hpayload ▸ rangePayload_layout 4 hn ho ht
  refine ⟨fun d t b hu => exec_cancelLoad rfl hst hs hu rfl, fun d t k hu => ?_, fun hu => ?_⟩
  · exact exec_busy rfl hst hs hu (.inr rfl)
  · have hexec : exec .streamOpen s = answerTo p (streamOpenRule p.payload { s with commandBuffer := rest }) :=
      runCommand_proceeds hst (proceeds_idle hs hu) (by rw [hpayload]; rfl) _
    rw [hexec]
    refine ⟨fun hbad => ?_, fun d hd hne htype hblock hone hmax hstore => ?_⟩
    · rw [streamOpenRule_badParam (s := { s with commandBuffer := rest }) hpay (loadableDescriptor_none_or hbad)]
      rfl
    · subst hd
      rw [streamOpenRule_inRange (s := { s with commandBuffer := rest }) hpay (loadableDescriptor_of_typed hne htype)
        hblock hone hmax]
      intro x first guarded pinned
      have hguarded (hspan : offset + total ≤ x.span) : guarded ↔ s.window.touches ⟨first, total⟩ = true := by
        refine (touches_iff s.window (t := ⟨first, total⟩) ?_).symm
        simp only [first, x] at hspan ⊢
        omega
      have hpinned : pinned ↔ s.pinned ⟨first, total⟩ = true := (pinned_iff s ⟨first, total⟩).symm
      refine ⟨fun hlock => ?_, fun hlock hlimit => ?_, fun hlock hspan hg => ?_, fun hlock hspan hg hpin => ?_,
        fun hlock hspan hg hpin => ?_⟩
      · rw [if_pos hlock]
        rfl
      · rw [if_neg (not_not.2 hlock), if_pos hlimit]
        rfl
      · rw [if_neg (not_not.2 hlock), if_neg (Nat.not_lt.2 hspan), if_pos ((hguarded hspan).1 hg)]
        rfl
      · rw [if_neg (not_not.2 hlock), if_neg (Nat.not_lt.2 hspan), if_neg (mt (hguarded hspan).2 hg)]
        exact (congrArg (answerTo p) (if_pos (hpinned.1 hpin))).trans rfl
      · rw [if_neg (not_not.2 hlock), if_neg (Nat.not_lt.2 hspan), if_neg (mt (hguarded hspan).2 hg)]
        exact ⟨_, congrArg (answerTo p) (if_neg (mt hpinned.2 hpin)), rfl, rfl, rfl⟩

/-! ### Stream Data (R52, R53) -/

section
variable {s : State} {d : Fin 64} {target : Span} {streamed : Nat} {payload : List Byte}

/-- With no stream open there is no block to write. -/
theorem streamDataRule_nothingOpen (h : s.loadUnit = .idle) (payload : List Byte) :
    streamDataRule payload s = nothingOpen s := by
  rw [streamDataRule, h]

/-- A packet that is not exactly the next block (R52). -/
theorem streamDataRule_badLength (hu : s.loadUnit = .streaming d target streamed)
    (h : payload.length ≠ 4 * min 256 (target.count - streamed)) :
    streamDataRule payload s = refuse s .badLength := by
  rw [streamDataRule, hu]
  rcases payloadWords_ne_length h with hw | ⟨ws, hw, hlen⟩
  · rw [hw]
  · rw [hw]
    exact if_pos hlen

/-- The next block is written, and the final one closes the stream (R52, R53). -/
theorem streamDataRule_block (hu : s.loadUnit = .streaming d target streamed)
    (hstore : target.first + target.count ≤ 131072) {ws : List Word}
    (hp : payload = ws.flatMap fun w => leBytes 4 w.toNat) (hlen : ws.length = min 256 (target.count - streamed)) :
    streamDataRule payload s =
      let store := storeWriteAll s.tableStore (target.first + streamed) ws
      if target.count - streamed ≤ 256 then
        .reply { s with tableStore := store, loadUnit := .idle } .done (leBytes 4 target.count)
      else
        .reply { s with tableStore := store, loadUnit := .streaming d target (streamed + 256) } .ok
          (leBytes 4 (streamed + 256)) := by
  have hblock : ¬ ws.length ≠ expectedBlock (target.count - streamed) := not_not.2 hlen
  rw [streamDataRule, hu, hp, payloadWords_flatMap]
  dsimp only
  rw [if_neg hblock, if_neg (not_not.2 ((inStore_iff target).2 hstore))]
  refine ite_congr rfl (fun _ => rfl) fun hmore => ?_
  have hfull : ws.length = 256 := by omega
  rw [hfull]

end

/-- Settles O26, by the load state, the number of words and the words to go. -/
theorem streamDataWrites : Obligations.StreamDataWrites := by
  intro s p rest hst hs
  have hexec (hc : Command.streamData.Proceeds s) :
      exec .streamData s = answerTo p (streamDataRule p.payload { s with commandBuffer := rest }) :=
    runCommand_proceeds hst hc rfl _
  refine ⟨fun d t b hu => exec_cancelLoad rfl hst hs hu rfl, fun hu => ?_,
    fun d target streamed hu hstore hopen hcanon => ?_⟩
  · rw [hexec (proceeds_idle hs hu), streamDataRule_nothingOpen (s := { s with commandBuffer := rest }) hu]
    rfl
  · rw [hexec (proceeds_streaming hs hu (by decide))]
    intro r
    refine ⟨fun hlen => ?_, fun ws hp hlen => ?_⟩
    · rw [streamDataRule_badLength (s := { s with commandBuffer := rest }) hu hlen]
      rfl
    · have hread := storeRead_storeWriteAll (a := target.first + streamed) (ws := ws) hcanon
        (by simp only [Config.storeWords]; omega)
      rw [streamDataRule_block (s := { s with commandBuffer := rest }) hu hstore hp hlen]
      by_cases hlast : r ≤ 256
      · exact ⟨_, congrArg (answerTo p) (if_pos hlast), hread, fun hmore => absurd hmore (Nat.not_lt.2 hlast),
          fun _ => ⟨rfl, rfl⟩⟩
      · exact ⟨_, congrArg (answerTo p) (if_neg hlast), hread, fun _ => rfl, fun h => absurd h hlast⟩

/-! ### Load Cancel and Stream Cancel (R49, R54) -/

section
variable {s : State}

/-- Load Cancel closes an open load. -/
theorem loadCancelRule_loading {d : Fin 64} {target : Span} {buffer : List Word}
    (hu : s.loadUnit = .loading d target buffer) (payload : List Byte) :
    loadCancelRule payload s = accept { s with loadUnit := .idle } := by
  rw [loadCancelRule, hu]

/-- With no load open Load Cancel changes nothing. -/
theorem loadCancelRule_noPatchLoad (h : s.noPatchLoad) (payload : List Byte) :
    loadCancelRule payload s = accept s := by
  cases hu : s.loadUnit with
  | loading d t b => exact absurd hu (h d t b)
  | idle => rw [loadCancelRule, hu]
  | streaming d t k => rw [loadCancelRule, hu]

/-- Stream Cancel closes an open stream and answers the words streamed. -/
theorem streamCancelRule_streaming {d : Fin 64} {target : Span} {streamed : Nat}
    (hu : s.loadUnit = .streaming d target streamed) (payload : List Byte) :
    streamCancelRule payload s = .reply { s with loadUnit := .idle } .ok (leBytes 4 streamed) := by
  rw [streamCancelRule, hu]

/-- With no stream open Stream Cancel changes nothing. -/
theorem streamCancelRule_idle (hu : s.loadUnit = .idle) (payload : List Byte) :
    streamCancelRule payload s = accept s := by
  rw [streamCancelRule, hu]

end

/-- Settles O24, by the load state; the count of a load admits no more than 256 words. -/
theorem loadsCancelled : Obligations.LoadsCancelled := by
  intro s p rest hs
  refine ⟨fun hst hp => ?_, fun hst hp => ?_, fun d target buffer ws hst hu hcount hp hlong => ?_⟩
  · have hexec : exec .loadCancel s = answerTo p (loadCancelRule p.payload { s with commandBuffer := rest }) :=
      runCommand_proceeds hst (proceeds_always hs rfl) (by rw [hp]; rfl) _
    rw [hexec]
    refine ⟨fun ⟨d, target, buffer, hu⟩ => ?_, fun hno => ?_⟩
    · rw [loadCancelRule_loading (s := { s with commandBuffer := rest }) hu]
      rfl
    · rw [loadCancelRule_noPatchLoad (s := { s with commandBuffer := rest }) hno]
      rfl
  · have hexec (hc : Command.streamCancel.Proceeds s) :
        exec .streamCancel s = answerTo p (streamCancelRule p.payload { s with commandBuffer := rest }) :=
      runCommand_proceeds hst hc (by rw [hp]; rfl) _
    refine ⟨fun d target k hu => ?_, fun hu => ?_⟩
    · rw [hexec (proceeds_streaming hs hu (by decide)),
        streamCancelRule_streaming (s := { s with commandBuffer := rest }) hu]
      exact ⟨_, rfl, rfl, rfl, rfl⟩
    · rw [hexec (proceeds_idle hs hu), streamCancelRule_idle (s := { s with commandBuffer := rest }) hu]
      exact ⟨[], rfl⟩
  · have hne : ws ≠ [] := List.ne_nil_of_length_pos (by omega)
    exact exec_loadData_overlong hst hs hu hp hne (by omega)

end Sys2Proof.Machine
end

section
/-! PROOFS. Write View's payload: the bytes that carry a parameter set, and the sets that are accepted (spec/04 R61,
spec/11 R171). -/

namespace Sys2Proof.Machine

/-! ### Codes of a view's parameters (R171) -/

/-- The switch a code names. -/
theorem switch?_eq_some {n : Nat} {b : Bool} : switch? n = some b ↔ n = (flagByte b).toNat := by
  match n with
  | 0 => cases b <;> simp [switch?, flagByte]
  | 1 => cases b <;> simp [switch?, flagByte]
  | n + 2 => cases b <;> simp [switch?, flagByte]

/-- The output format a code names. -/
theorem format?_eq_some {n : Nat} {f : Format} : format? n = some f ↔ n = f.code.toNat := by
  match n with
  | 0 => cases f <;> simp [format?, Format.code]
  | 1 => cases f <;> simp [format?, Format.code]
  | n + 2 => cases f <;> simp [format?, Format.code]

/-- A code past the two output formats names none. -/
theorem format?_eq_none {n : Nat} : format? n = none ↔ 1 < n := by
  match n with
  | 0 => simp [format?]
  | 1 => simp [format?]
  | n + 2 => simp [format?]

/-- The scheme a code names. -/
theorem scheme?_eq_some {n : Nat} {x : Scheme} : scheme? n = some x ↔ n = x.code.toNat := by
  match n with
  | 0 => cases x <;> simp [scheme?, Scheme.code]
  | 1 => cases x <;> simp [scheme?, Scheme.code]
  | 2 => cases x <;> simp [scheme?, Scheme.code]
  | 3 => cases x <;> simp [scheme?, Scheme.code]
  | n + 4 => cases x <;> simp [scheme?, Scheme.code]

/-- A code past the four schemes names none. -/
theorem scheme?_eq_none {n : Nat} : scheme? n = none ↔ 3 < n := by
  match n with
  | 0 => simp [scheme?]
  | 1 => simp [scheme?]
  | 2 => simp [scheme?]
  | 3 => simp [scheme?]
  | n + 4 => simp [scheme?]

/-- The numbers a payload may give with a forwarding class: its own, in range; any with OFF and EVERY (4.1, log 20). -/
def ForwardClass.takes : ForwardClass → Nat → Prop
  | .off, _ => True
  | .every, _ => True
  | .decimate m, n => n = m ∧ 2 ≤ m ∧ m ≤ 255
  | .spacing m, n => n = m ∧ 1 ≤ m ∧ m ≤ 65535
  | .marker m, n => n = m ∧ 1 ≤ m ∧ m ≤ 255

/-- The forwarding class a code and a number name. -/
theorem forwardClass?_eq_some {k n : Nat} {x : ForwardClass} :
    forwardClass? k n = some x ↔ k = x.code.toNat ∧ x.takes n := by
  match k with
  | 0 => cases x <;> simp [forwardClass?, ForwardClass.code, ForwardClass.takes]
  | 1 => cases x <;> simp [forwardClass?, ForwardClass.code, ForwardClass.takes]
  | 2 =>
    cases x <;> simp [forwardClass?, ForwardClass.code, ForwardClass.takes]
    omega
  | 3 =>
    cases x <;> simp [forwardClass?, ForwardClass.code, ForwardClass.takes]
    omega
  | 4 =>
    cases x <;> simp [forwardClass?, ForwardClass.code, ForwardClass.takes]
    omega
  | k + 5 => cases x <;> simp [forwardClass?, ForwardClass.code]

/-- The codes and numbers that name no forwarding class. -/
theorem forwardClass?_eq_none {k n : Nat} : forwardClass? k n = none ↔ 4 < k ∨ (k = 2 ∧ (n < 2 ∨ 255 < n))
    ∨ (k = 3 ∧ (n < 1 ∨ 65535 < n)) ∨ (k = 4 ∧ (n < 1 ∨ 255 < n)) := by
  match k with
  | 0 => simp [forwardClass?]
  | 1 => simp [forwardClass?]
  | 2 => simp [forwardClass?]; omega
  | 3 => simp [forwardClass?]; omega
  | 4 => simp [forwardClass?]; omega
  | k + 5 => simp [forwardClass?]

/-! ### Gain sets (4.1, R61) -/

/-- The gain-set entry two bytes carry. -/
theorem gainEntryAt_eq_some {p : List Byte} {off : Nat} {e : GainEntry} :
    gainEntryAt p off = some e ↔ e.level.val = num p off 1 ∧ e.selector.val = num p (off + 1) 1 := by
  obtain ⟨l, d⟩ := e
  rw [← below?_eq_some, ← below?_eq_some, gainEntryAt]
  cases below? 8 (num p off 1) <;> cases below? 64 (num p (off + 1) 1) <;> simp

/-- Two bytes out of range carry none. -/
theorem gainEntryAt_eq_none {p : List Byte} {off : Nat} :
    gainEntryAt p off = none ↔ 7 < num p off 1 ∨ 63 < num p (off + 1) 1 := by
  have hl := below?_eq_none (n := 8) (v := num p off 1)
  have hd := below?_eq_none (n := 64) (v := num p (off + 1) 1)
  rw [Nat.lt_iff_add_one_le, Nat.lt_iff_add_one_le, ← hl, ← hd, gainEntryAt]
  cases below? 8 (num p off 1) <;> cases below? 64 (num p (off + 1) 1) <;> simp

/-- The entries of a gain set one by one. -/
theorem gainSet_eq (g : Vector GainEntry 4) : g = #v[pick g 0, pick g 1, pick g 2, pick g 3] :=
  pick_ext fun i => by fin_cases i <;> rfl

/-- The gain set eight bytes carry, entry by entry. -/
theorem gainSetAt_eq_some {p : List Byte} {off : Nat} {g : Vector GainEntry 4} :
    gainSetAt p off = some g ↔ ∀ i : Fin 4, gainEntryAt p (off + 2 * i.val) = some (pick g i) := by
  simp only [gainSetAt, Fin.forall_fin_succ, IsEmpty.forall_iff, and_true]
  constructor
  · intro h
    split at h
    · next a b c d ha hb hc hd =>
      cases h
      exact ⟨ha, hb, hc, hd⟩
    · cases h
  · rintro ⟨ha, hb, hc, hd⟩
    rw [gainSet_eq g, show gainEntryAt p off = _ from ha, show gainEntryAt p (off + 2) = _ from hb,
      show gainEntryAt p (off + 4) = _ from hc, show gainEntryAt p (off + 6) = _ from hd]
    rfl

/-- Eight bytes of which some entry is out of range carry none. -/
theorem gainSetAt_eq_none {p : List Byte} {off : Nat} :
    gainSetAt p off = none ↔ ∃ i : Fin 4, gainEntryAt p (off + 2 * i.val) = none := by
  constructor
  · intro h
    by_contra hno
    have hentry : ∀ i : Fin 4, ∃ e, gainEntryAt p (off + 2 * i.val) = some e := fun i =>
      Option.ne_none_iff_exists'.1 fun k => hno ⟨i, k⟩
    choose e he using hentry
    have hset : gainSetAt p off = some (tabulate e) := gainSetAt_eq_some.2 fun i => by rw [pick_tabulate, he]
    cases h.symm.trans hset
  · rintro ⟨i, hi⟩
    by_contra hne
    obtain ⟨g, hg⟩ := Option.ne_none_iff_exists'.1 hne
    cases hi.symm.trans (gainSetAt_eq_some.1 hg i)

/-- Strictly ascending levels, pair by pair. -/
theorem ascendingLevels_iff (es : List GainEntry) :
    ascendingLevels es = true ↔ es.Pairwise fun a b => a.level < b.level := by
  induction es with
  | nil => simp [ascendingLevels]
  | cons a es ih =>
    match es with
    | [] => simp [ascendingLevels]
    | b :: es =>
      simp only [ascendingLevels, Bool.and_eq_true, decide_eq_true_eq, ih, List.pairwise_cons, List.mem_cons,
        forall_eq_or_imp]
      constructor
      · rintro ⟨h, k, l⟩
        exact ⟨⟨h, fun x hx => lt_trans h (k x hx)⟩, k, l⟩
      · rintro ⟨⟨h, -⟩, k, l⟩
        exact ⟨h, k, l⟩

/-- The used entries of a gain set ascend when each used entry is above the used ones before it. -/
theorem ascending_used_iff (g : Vector GainEntry 4) : ascendingLevels (usedEntries g) = true ↔
    ∀ i j : Fin 4, j < i → (pick g i).selector ≠ 0 → (pick g j).selector ≠ 0 →
      (pick g j).level < (pick g i).level := by
  rw [ascendingLevels_iff, usedEntries, List.pairwise_filter, List.pairwise_iff_getElem]
  simp only [bne_iff_ne, Vector.length_toList, Vector.getElem_toList]
  constructor
  · intro h i j hij hi hj
    exact h j i j.isLt i.isLt hij hj hi
  · intro h i j hi hj hij hsi hsj
    exact h ⟨j, hj⟩ ⟨i, hi⟩ hij hsj hsi

/-! ### The parameters a payload carries (R61, R171) -/

/-- The parameters at job start that a Write View payload carries, as given. -/
structure JobPayload (p : List Byte) (j : JobParams) : Prop where
  gains : gainSetAt p 4 = some j.gainSet
  mesh : below? 64 (num p 12 1) = some j.meshSelector
  tone : below? 64 (num p 13 1) = some j.toneSelector
  width : num p 14 2 = j.width
  height : num p 16 2 = j.height
  axis : switch? (num p 18 1) = some j.axisTracking
  black : switch? (num p 19 1) = some j.blackSubtraction
  exposure : BitVec.ofNat 16 (num p 20 2) = j.referenceExposure
  fill : num p 22 2 = j.fill
  format : format? (num p 24 1) = some j.format
  histogram : switch? (num p 25 1) = some j.histogram
  scheme : scheme? (num p 26 1) = some j.scheme
  ring : num p 27 1 = j.ringLength
  base : num p 28 1 = j.slotBase

/-- The parameter set that a Write View payload carries, as given. -/
structure ViewPayload (p : List Byte) (x : ViewParams) : Prop where
  camera : below? 4 (num p 1 1) = some x.camera
  levels : BitVec.ofNat 8 (num p 2 1) = x.levelMask
  kinds : BitVec.ofNat 3 (num p 3 1) = x.kindMask
  job : JobPayload p x.job
  advance : switch? (num p 29 1) = some x.advanceOnDegraded
  forwarding : forwardClass? (num p 30 1) (num p 31 2) = some x.forwardClass
  priority : below? 4 (num p 33 1) = some x.priority

/-- A parameter set as it is stored (R61). -/
def ViewParams.stored (x : ViewParams) : ViewParams := { x with job := storedJobParams x.job }

section
variable {p : List Byte}

/-- Reading the parameters at job start. -/
theorem jobParamsAt_eq_some {j : JobParams} : jobParamsAt p = some j ↔ JobPayload p j := by
  constructor
  · intro h
    unfold jobParamsAt at h
    split at h
    · next hgains hmesh htone haxis hblack =>
      split at h
      · next hformat hhist hscheme =>
        cases h
        exact ⟨hgains, hmesh, htone, rfl, rfl, haxis, hblack, rfl, rfl, hformat, hhist, hscheme, rfl, rfl⟩
      · cases h
    · cases h
  · rintro ⟨hgains, hmesh, htone, hw, hh, haxis, hblack, hexp, hfill, hformat, hhist, hscheme, hring, hbase⟩
    rw [jobParamsAt, hgains, hmesh, htone, haxis, hblack, hformat, hhist, hscheme, hw, hh, hexp, hfill, hring, hbase]

/-- Bytes that carry no parameters at job start: a code or a number bounded by its type is out of range. -/
theorem jobParamsAt_eq_none : jobParamsAt p = none ↔ gainSetAt p 4 = none ∨ below? 64 (num p 12 1) = none
    ∨ below? 64 (num p 13 1) = none ∨ switch? (num p 18 1) = none ∨ switch? (num p 19 1) = none
    ∨ format? (num p 24 1) = none ∨ switch? (num p 25 1) = none ∨ scheme? (num p 26 1) = none := by
  constructor
  · intro h
    by_contra hno
    simp only [not_or, ← ne_eq, Option.ne_none_iff_exists'] at hno
    obtain ⟨⟨gains, hgains⟩, ⟨mesh, hmesh⟩, ⟨tone, htone⟩, ⟨axis, haxis⟩, ⟨black, hblack⟩, ⟨format, hformat⟩,
      ⟨histogram, hhist⟩, scheme, hscheme⟩ := hno
    have hjob : JobPayload p
        ⟨gains, mesh, tone, _, _, axis, black, _, _, format, histogram, scheme, _, _⟩ :=
      ⟨hgains, hmesh, htone, rfl, rfl, haxis, hblack, rfl, rfl, hformat, hhist, hscheme, rfl, rfl⟩
    cases h.symm.trans (jobParamsAt_eq_some.2 hjob)
  · intro hbad
    by_contra hne
    obtain ⟨j, hj⟩ := Option.ne_none_iff_exists'.1 hne
    obtain ⟨hgains, hmesh, htone, -, -, haxis, hblack, -, -, hformat, hhist, hscheme, -, -⟩ :=
      jobParamsAt_eq_some.1 hj
    simp [hgains, hmesh, htone, haxis, hblack, hformat, hhist, hscheme] at hbad

/-- Reading the parameter set: it is in range and stored as R61 stores it. -/
theorem viewParamsAt_eq_some {new : ViewParams} : viewParamsAt p = some new ↔
    ∃ x, ViewPayload p x ∧ num p 3 1 < 8 ∧ jobParamsInRange x.job = true ∧ x.stored = new := by
  constructor
  · intro h
    unfold viewParamsAt at h
    split at h
    · next camera job advance cls priority hcamera hjob hadvance hcls hpriority =>
      split at h
      · next hrange =>
        cases h
        exact ⟨⟨camera, _, _, job, advance, cls, priority⟩,
          ⟨hcamera, rfl, rfl, jobParamsAt_eq_some.1 hjob, hadvance, hcls, hpriority⟩, hrange.1, hrange.2, rfl⟩
      · cases h
    · cases h
  · rintro ⟨x, ⟨hcamera, hlevels, hkinds, hjob, hadvance, hcls, hpriority⟩, hmask, hrange, rfl⟩
    rw [viewParamsAt, hcamera, jobParamsAt_eq_some.2 hjob, hadvance, hcls, hpriority, hlevels, hkinds]
    exact if_pos ⟨hmask, hrange⟩

/-- Bytes that carry no parameter set in range. -/
theorem viewParamsAt_eq_none : viewParamsAt p = none ↔ below? 4 (num p 1 1) = none ∨ 7 < num p 3 1
    ∨ (∀ j, JobPayload p j → jobParamsInRange j = false) ∨ switch? (num p 29 1) = none
    ∨ forwardClass? (num p 30 1) (num p 31 2) = none ∨ below? 4 (num p 33 1) = none := by
  constructor
  · intro h
    by_contra hno
    simp only [not_or, ← ne_eq, Option.ne_none_iff_exists', not_forall, Bool.not_eq_false] at hno
    obtain ⟨⟨camera, hcamera⟩, hmask, ⟨job, hjob, hrange⟩, ⟨advance, hadvance⟩, ⟨cls, hcls⟩, priority, hpriority⟩ := hno
    have hsome := viewParamsAt_eq_some.2 ⟨⟨camera, _, _, job, advance, cls, priority⟩,
      ⟨hcamera, rfl, rfl, hjob, hadvance, hcls, hpriority⟩, by omega, hrange, rfl⟩
    cases h.symm.trans hsome
  · intro hbad
    by_contra hne
    obtain ⟨new, hnew⟩ := Option.ne_none_iff_exists'.1 hne
    obtain ⟨x, ⟨hcamera, -, -, hjob, hadvance, hcls, hpriority⟩, hmask, hrange, -⟩ := viewParamsAt_eq_some.1 hnew
    have hwrong : ¬ ∀ j, JobPayload p j → jobParamsInRange j = false := fun k =>
      Bool.false_ne_true ((k _ hjob).symm.trans hrange)
    simp [hcamera, hadvance, hcls, hpriority, hwrong] at hbad
    omega

end

/-- The parameters at job start as R61 checks them. -/
theorem jobParamsInRange_iff (j : JobParams) : jobParamsInRange j = true ↔
    ascendingLevels (usedEntries j.gainSet) = true ∧ (64 ≤ j.width ∧ j.width ≤ 2048 ∧ j.width % 16 = 0)
    ∧ (16 ≤ j.height ∧ j.height ≤ 2048) ∧ j.fill ≤ 1023 ∧ (j.scheme = .ring → j.ringLength ∈ [2, 4, 8, 16])
    ∧ (j.scheme ≠ .unbuffered → 12 ≤ j.slotBase ∧ j.slotBase ≤ 63 ∧ j.slotBase + j.schemeLength ≤ 64) := by
  have hor : ∀ (a : Bool) (q : Prop), (a = true ∨ q) ↔ (a = false → q) := fun a q => by cases a <;> simp
  simp only [jobParamsInRange, Bool.and_eq_true, decide_eq_true_eq, Bool.or_eq_true, hor, and_assoc]
  simp

/-- The scheme length of stored parameters is that of the parameters given. -/
@[simp] theorem storedJobParams_schemeLength (j : JobParams) : (storedJobParams j).schemeLength = j.schemeLength := by
  cases h : j.scheme <;> simp [storedJobParams, JobParams.schemeLength, h]

end Sys2Proof.Machine
end

section
/-! PROOFS. What the views' invariants read, and the changes of a view that keep the views and jobs sound (spec/04 R62
to R74, spec/05 R82). -/

namespace Sys2Proof.Machine

/-! ### The invariants and what they read -/

/-- The views and their jobs are sound, but for the views of `vs`, which may have lost the job in flight they were
CLOSING for and not yet have left that state (R71). -/
structure SoundBut (vs : List (Fin 16)) (s : State) : Prop where
  views : ViewsSound s
  queued : ∀ j ∈ s.jobs, (pick s.views j.view).state = .active ∨ (pick s.views j.view).state = .draining
  inFlight : ∀ f ∈ s.flight, (pick s.views f.job.view).state = .active
    ∨ (pick s.views f.job.view).state = .draining ∨ (pick s.views f.job.view).state = .closing
  closing : ∀ v, (pick s.views v).state = .closing → s.inFlightOf v = true ∨ v ∈ vs

/-- A view without what no invariant of the views reads: its counters and its last-good record. -/
def View.bare (w : View) : View := { w with lastGood := none, counters := ViewCounters.zero }

/-- What the invariants of the views and jobs read of a state. -/
structure ViewParts where
  views : Vector View 16
  jobs : List (Fin 16)
  flight : Option (Fin 16)

/-- The parts of a state that the invariants of the views and jobs read. -/
def State.viewParts (s : State) : ViewParts where
  views := updAll s.views View.bare
  jobs := s.jobs.map Job.view
  flight := s.flight.map fun f => f.job.view

/-- No view is excepted. -/
theorem soundBut_nil_iff (s : State) : SoundBut [] s ↔ ViewsSound s ∧ JobsSound s := by
  constructor
  · rintro ⟨hviews, hqueued, hflight, hclosing⟩
    exact ⟨hviews, hqueued, hflight, fun v hv => (hclosing v hv).resolve_right List.not_mem_nil⟩
  · rintro ⟨hviews, hqueued, hflight, hclosing⟩
    exact ⟨hviews, hqueued, hflight, fun v hv => .inl (hclosing v hv)⟩

/-- A view fits when what the invariants read of it does. -/
theorem viewFits_bare (w : View) : ViewFits w.bare ↔ ViewFits w :=
  ⟨fun h => ⟨h.buffer, h.range, h.geometry, h.fill, h.forwarding, h.active, h.disabled⟩,
    fun h => ⟨h.buffer, h.range, h.geometry, h.fill, h.forwarding, h.active, h.disabled⟩⟩

/-- The job in flight is a view's. -/
theorem inFlightOf_iff (s : State) (v : Fin 16) : s.inFlightOf v = true ↔ ∃ f ∈ s.flight, f.job.view = v := by
  unfold State.inFlightOf
  cases s.flight <;> simp

/-- A view has jobs in the queue. -/
theorem queuedJobs_pos_iff (s : State) (v : Fin 16) : 0 < s.queuedJobs v ↔ ∃ j ∈ s.jobs, j.view = v := by
  simp [State.queuedJobs, List.countP_pos_iff]

/-- A view has no outstanding job (R66). -/
theorem outstanding_eq_zero_iff (s : State) (v : Fin 16) :
    s.outstanding v = 0 ↔ (∀ j ∈ s.jobs, j.view ≠ v) ∧ ∀ f ∈ s.flight, f.job.view ≠ v := by
  have hq := queuedJobs_pos_iff s v
  have hf := inFlightOf_iff s v
  have hpos : 0 < s.outstanding v ↔ 0 < s.queuedJobs v ∨ s.inFlightOf v = true := by
    unfold State.outstanding
    cases s.inFlightOf v <;> simp
  rw [← not_iff_not, ← ne_eq, ← Nat.pos_iff_ne_zero, hpos, hq, hf]
  simp only [not_and_or, not_forall, ne_eq, not_not, exists_prop]

section
variable {s t : State} {vs : List (Fin 16)}

/-- Two states with the same parts, part by part. -/
theorem viewParts_eq_iff : t.viewParts = s.viewParts ↔ (∀ v, (pick t.views v).bare = (pick s.views v).bare)
    ∧ t.jobs.map Job.view = s.jobs.map Job.view
    ∧ (t.flight.map fun f => f.job.view) = s.flight.map fun f => f.job.view := by
  have hviews : updAll t.views View.bare = updAll s.views View.bare
      ↔ ∀ v, (pick t.views v).bare = (pick s.views v).bare :=
    ⟨fun h v => by simpa using congrArg (pick · v) h, fun h => pick_ext fun v => by simpa using h v⟩
  simp only [State.viewParts, ViewParts.mk.injEq, hviews]

/-- The views of a state alone, when the jobs are the same. -/
theorem viewParts_of_views (hviews : ∀ v, (pick t.views v).bare = (pick s.views v).bare) (hjobs : t.jobs = s.jobs)
    (hflight : t.flight = s.flight) : t.viewParts = s.viewParts :=
  viewParts_eq_iff.2 ⟨hviews, by rw [hjobs], by rw [hflight]⟩

/-- Soundness reads the parts only. -/
theorem SoundBut.congr (h : SoundBut vs s) (hp : t.viewParts = s.viewParts) : SoundBut vs t := by
  obtain ⟨hviews, hjobs, hflight⟩ := viewParts_eq_iff.1 hp
  have hparams : ∀ v, (pick t.views v).params = (pick s.views v).params := fun v =>
    (congrArg View.params (hviews v) :)
  have hstate : ∀ v, (pick t.views v).state = (pick s.views v).state := fun v =>
    (congrArg View.state (hviews v) :)
  have hin : ∀ v, (∃ f ∈ t.flight, f.job.view = v) ↔ ∃ f ∈ s.flight, f.job.view = v := fun v => by
    have := congrArg (v ∈ ·) hflight
    simpa using this
  refine ⟨⟨fun v => ?_, fun u v huv => ?_⟩, fun j hj => ?_, fun f hf => ?_, fun v hv => ?_⟩
  · rw [← viewFits_bare, hviews, viewFits_bare]
    exact h.views.each v
  · rw [hparams, hparams]
    exact h.views.apart u v huv
  · obtain ⟨j', hj', e⟩ := List.mem_map.1 (hjobs ▸ List.mem_map_of_mem hj)
    rw [hstate, ← e]
    exact h.queued j' hj'
  · obtain ⟨f', hf', e⟩ := (hin f.job.view).1 ⟨f, hf, rfl⟩
    rw [hstate, ← e]
    exact h.inFlight f' hf'
  · rw [inFlightOf_iff, hin v, ← inFlightOf_iff]
    exact h.closing v (hstate v ▸ hv)

/-- Two ranges share a word whichever is named first. -/
theorem overlaps_comm (a b : Span) : a.overlaps b = b.overlaps a := by
  simp only [Span.overlaps, max_comm a.first, min_comm (a.first + a.count)]

/-- What the state table of 4.3 asks of a view in a state: where it has queued jobs or the job in flight, and when it
may be CLOSING. -/
structure StateServes (s : State) (vs : List (Fin 16)) (v : Fin 16) (x : ViewState) : Prop where
  queued : (∃ j ∈ s.jobs, j.view = v) → x = .active ∨ x = .draining
  inFlight : (∃ f ∈ s.flight, f.job.view = v) → x = .active ∨ x = .draining ∨ x = .closing
  closing : x = .closing → s.inFlightOf v = true ∨ v ∈ vs

/-- The state of each view serves its jobs. -/
theorem SoundBut.serves (h : SoundBut vs s) (v : Fin 16) : StateServes s vs v (pick s.views v).state :=
  ⟨fun ⟨j, hj, e⟩ => e ▸ h.queued j hj, fun ⟨f, hf, e⟩ => e ▸ h.inFlight f hf, h.closing v⟩

/-- One view changes: it fits, its slots stay apart from the others', and its state serves its jobs. -/
theorem SoundBut.updView_apart {ws : List (Fin 16)} {v : Fin 16} {f : View → View} (h : SoundBut ws s)
    (hfits : ViewFits (f (pick s.views v)))
    (hapart : ∀ u, u ≠ v →
      (f (pick s.views v)).params.job.slotRange.overlaps (pick s.views u).params.job.slotRange = false)
    (hserves : StateServes s vs v (f (pick s.views v)).state) (hws : ∀ u ∈ ws, u ≠ v → u ∈ vs) :
    SoundBut vs (s.updView v f) := by
  have hstate : ∀ u, (pick (s.updView v f).views u).state
      = if u = v then (f (pick s.views v)).state else (pick s.views u).state := fun u => by
    rw [State.updView_views, pick_upd]
    split
    · next e => rw [e]
    · rfl
  refine ⟨⟨fun u => ?_, fun u u' hne => ?_⟩, fun j hj => ?_, fun g hg => ?_, fun u hu => ?_⟩
  · rw [State.updView_views, pick_upd]
    split
    · next e => exact e ▸ hfits
    · exact h.views.each u
  · rw [State.updView_views, pick_upd, pick_upd]
    split
    · next e =>
      rw [if_neg fun e' => hne (e.trans e'.symm), e]
      exact hapart u' fun e' => hne (e.trans e'.symm)
    · next hu =>
      split
      · next e => rw [e, overlaps_comm]; exact hapart u hu
      · exact h.views.apart u u' hne
  · rw [hstate]
    split
    · next e => exact hserves.queued ⟨j, hj, e⟩
    · exact h.queued j hj
  · rw [hstate]
    split
    · next e => exact hserves.inFlight ⟨g, hg, e⟩
    · exact h.inFlight g hg
  · rw [hstate] at hu
    split at hu
    · next e => exact e ▸ hserves.closing hu
    · next e => exact (h.closing u hu).imp_right fun k => hws u k e

/-- One view changes within its slots. -/
theorem SoundBut.updView {v : Fin 16} {f : View → View} (h : SoundBut vs s)
    (hfits : ViewFits (f (pick s.views v)))
    (hparams : (f (pick s.views v)).params = (pick s.views v).params)
    (hserves : StateServes s vs v (f (pick s.views v)).state) : SoundBut vs (s.updView v f) :=
  h.updView_apart hfits (fun u hu => by rw [hparams]; exact h.views.apart v u (Ne.symm hu)) hserves
    fun _ hu _ => hu

/-- One view changes within its slots and its state. -/
theorem SoundBut.updView_state {v : Fin 16} {f : View → View} (h : SoundBut vs s)
    (hfits : ViewFits (f (pick s.views v)))
    (hparams : (f (pick s.views v)).params = (pick s.views v).params)
    (hstate : (f (pick s.views v)).state = (pick s.views v).state) : SoundBut vs (s.updView v f) :=
  h.updView hfits hparams (hstate.symm ▸ h.serves v)

/-- Queued jobs removed. -/
theorem SoundBut.filter_jobs (h : SoundBut vs s) (p : Job → Bool) : SoundBut vs { s with jobs := s.jobs.filter p } :=
  { h with
    views := ⟨h.views.each, h.views.apart⟩
    queued := fun j hj => h.queued j (List.mem_of_mem_filter hj) }

/-- The job in flight gone: its view may have yet to leave CLOSING. -/
theorem SoundBut.landed {f : Flight} (h : SoundBut vs s) (hf : s.flight = some f) :
    SoundBut (f.job.view :: vs) { s with flight := none } :=
  { h with
    views := ⟨h.views.each, h.views.apart⟩
    inFlight := fun g hg => absurd hg (Option.not_mem_none g)
    closing := fun v hv => by
      rcases h.closing v hv with k | k
      · obtain ⟨g, hg, rfl⟩ := (inFlightOf_iff s v).1 k
        cases hf.symm.trans hg
        exact .inr List.mem_cons_self
      · exact .inr (List.mem_cons_of_mem _ k) }

/-- Without a job in flight and with no view excepted, none is CLOSING. -/
theorem SoundBut.not_closing (h : SoundBut [] s) (hidle : s.flight = none) (v : Fin 16) :
    (pick s.views v).state ≠ .closing := fun hv => by
  rcases h.closing v hv with k | k
  · obtain ⟨f, hf, -⟩ := (inFlightOf_iff s v).1 k
    rw [hidle] at hf
    cases hf
  · cases k

end

/-! ### One view on its own (4.1, R63, R64, R68 to R74) -/

section
variable {w : View}

/-- A view in use has a buffering scheme (R68). -/
theorem ViewFits.scheme_ne (h : ViewFits w) (hs : w.state ≠ .disabled) :
    w.params.job.scheme ≠ .unbuffered := fun e => by
  have hb := h.buffer
  rw [View.bufferFits, e] at hb
  exact hs hb.1

/-- The buffering of a view with a scheme, in one line: a ring's length, and the ring pointer below it, or 0 without a
ring. -/
theorem bufferFits_iff (hs : w.params.job.scheme ≠ .unbuffered) : w.bufferFits ↔
    (w.params.job.scheme = .ring → w.params.job.ringLength ∈ [2, 4, 8, 16] ∧ w.ringPointer < w.params.job.ringLength)
    ∧ (w.params.job.scheme ≠ .ring → w.ringPointer = 0) := by
  unfold View.bufferFits
  cases h : w.params.job.scheme <;> simp_all

/-- A view with the pointers and forwarding state of DISABLED fits the buffering its parameters ask for (R73). -/
theorem bufferFits_of_pointer_zero (hp : w.ringPointer = 0)
    (hs : w.params.job.scheme = .unbuffered → w.state = .disabled)
    (hr : w.params.job.scheme = .ring → w.params.job.ringLength ∈ [2, 4, 8, 16]) : w.bufferFits := by
  unfold View.bufferFits
  split
  · next e => exact ⟨hs e, hp⟩
  · exact hp
  · exact hp
  · next e =>
    have hlen := hr e
    refine ⟨hlen, hp ▸ Nat.pos_of_ne_zero fun h => ?_⟩
    rw [h] at hlen
    exact absurd hlen (by decide)

/-- A forwarding state that is reset fits every class (R64, R73). -/
theorem forwardingFits_of_reset (hn : ∀ n, w.params.forwardClass = .decimate n → 0 < n) (hd : w.decimation = 0)
    (ho : w.lastOdometer = none) (hb : w.burst = 0) : w.forwardingFits := by
  unfold View.forwardingFits
  split
  · exact ⟨hd, ho, hb⟩
  · exact ⟨hd, ho, hb⟩
  · next n e => exact ⟨hd ▸ hn n e, ho, hb⟩
  · exact ⟨hd, hb⟩
  · exact ⟨hd, ho, hb ▸ Nat.zero_le _⟩

/-- The decimation count lies below its number, which is therefore positive. -/
theorem ViewFits.decimate_pos (h : ViewFits w) (n : Nat) (e : w.params.forwardClass = .decimate n) : 0 < n := by
  have hf := h.forwarding
  rw [View.forwardingFits, e] at hf
  exact Nat.zero_lt_of_lt hf.1

/-- The length of a view's ring is one of the four. -/
theorem ViewFits.ring_length (h : ViewFits w) (e : w.params.job.scheme = .ring) :
    w.params.job.ringLength ∈ [2, 4, 8, 16] := by
  have hb := h.buffer
  rw [View.bufferFits, e] at hb
  exact hb.1

/-- A view on entering DISABLED (R73). -/
theorem ViewFits.disable (h : ViewFits w) : ViewFits w.disable where
  buffer := bufferFits_of_pointer_zero (w := w.disable) rfl (fun _ => rfl) h.ring_length
  range := h.range
  geometry := h.geometry
  fill := h.fill
  forwarding := forwardingFits_of_reset (w := w.disable) h.decimate_pos rfl rfl rfl
  active := nofun
  disabled _ := ⟨rfl, rfl, rfl, rfl, rfl⟩

/-- A view at Soft Reset (R78). -/
theorem ViewFits.softReset (h : ViewFits w) : ViewFits w.softReset :=
  (viewFits_bare w.softReset).1 ((viewFits_bare w.disable).2 h.disable)

/-- A view in use may take another state but DISABLED; ACTIVE asks for a mesh selector (R68). -/
theorem ViewFits.with_state {x : ViewState} (h : ViewFits w) (hs : w.params.job.scheme ≠ .unbuffered)
    (hx : x ≠ .disabled) (hactive : x = .active → w.params.job.meshSelector ≠ 0) :
    ViewFits { w with state := x } :=
  { h with
    buffer := (bufferFits_iff (w := { w with state := x }) hs).2 ((bufferFits_iff hs).1 h.buffer)
    active := hactive
    disabled := fun e => absurd e hx }

/-- A view that leaves its waiting state (R71). -/
theorem ViewFits.leaveWaiting (h : ViewFits w) : ViewFits w.leaveWaiting := by
  unfold View.leaveWaiting
  split
  · next e => exact h.with_state (h.scheme_ne (by simp [e])) (by decide) nofun
  · exact h.disable
  all_goals exact h

/-- Leaving the waiting state changes no parameter. -/
@[simp] theorem View.leaveWaiting_params (w : View) : w.leaveWaiting.params = w.params := by
  unfold View.leaveWaiting
  split <;> rfl

/-- The buffer's advance in use (R137, R138). -/
theorem ViewFits.advance (h : ViewFits w) (hs : w.state ≠ .disabled) : ViewFits w.advance.1 := by
  unfold View.advance
  cases e : w.params.job.scheme with
  | unbuffered => exact h
  | single => exact h
  | double =>
    have hb := h.buffer
    rw [View.bufferFits, e] at hb
    exact { h with
      buffer := by rw [View.bufferFits, e]; exact hb
      disabled := fun k => absurd k hs }
  | ring =>
    have hb := h.buffer
    rw [View.bufferFits, e] at hb
    exact { h with
      buffer := by
        rw [View.bufferFits, e]
        exact ⟨hb.1, Nat.mod_lt _ (Nat.zero_lt_of_lt hb.2)⟩
      disabled := fun k => absurd k hs }

/-- The buffer's advance changes neither parameters nor state. -/
theorem View.advance_stands (w : View) : w.advance.1.params = w.params ∧ w.advance.1.state = w.state := by
  unfold View.advance
  split <;> exact ⟨rfl, rfl⟩

/-- The forwarding state of DECIMATE (R74, R147). -/
theorem forwardingFits_decimate {n : Nat} (e : w.params.forwardClass = .decimate n) :
    w.forwardingFits ↔ w.decimation < n ∧ w.lastOdometer = none ∧ w.burst = 0 := by
  rw [View.forwardingFits, e]

/-- The forwarding state of SPACING (R74, R148). -/
theorem forwardingFits_spacing {d : Nat} (e : w.params.forwardClass = .spacing d) :
    w.forwardingFits ↔ w.decimation = 0 ∧ w.burst = 0 := by
  rw [View.forwardingFits, e]

/-- The forwarding state of MARKER (R74, R149). -/
theorem forwardingFits_marker {k : Nat} (e : w.params.forwardClass = .marker k) :
    w.forwardingFits ↔ w.decimation = 0 ∧ w.lastOdometer = none ∧ w.burst ≤ k := by
  rw [View.forwardingFits, e]

/-- A view with another forwarding state. -/
def View.withForwarding (w : View) (d : Nat) (o : Option Word) (b : Nat) : View :=
  { w with decimation := d, lastOdometer := o, burst := b }

/-- Forwarding selection changes the forwarding state alone, within the ranges of its class (R147 to R149). -/
theorem View.select_eq (w : View) (odometer : Word) (marker : Bool) :
    ∃ d o b, (w.select odometer marker).2 = w.withForwarding d o b
      ∧ (w.forwardingFits → (w.withForwarding d o b).forwardingFits) := by
  unfold View.select
  cases e : w.params.forwardClass with
  | off => exact ⟨_, _, _, rfl, id⟩
  | every => exact ⟨_, _, _, rfl, id⟩
  | decimate n =>
    have hfits {d : Nat} (hd : d < n) (h : w.forwardingFits) :
        (w.withForwarding d w.lastOdometer w.burst).forwardingFits :=
      (forwardingFits_decimate (w := w.withForwarding d _ _) e).2 ⟨hd, ((forwardingFits_decimate e).1 h).2⟩
    dsimp only
    split
    · exact ⟨0, _, _, rfl, fun h => hfits (Nat.zero_lt_of_lt ((forwardingFits_decimate e).1 h).1) h⟩
    · next hne =>
      exact ⟨_, _, _, rfl, fun h => hfits (Nat.lt_of_le_of_ne ((forwardingFits_decimate e).1 h).1 hne) h⟩
  | spacing d =>
    have hfits {o : Option Word} (h : w.forwardingFits) :
        (w.withForwarding w.decimation o w.burst).forwardingFits :=
      (forwardingFits_spacing (w := w.withForwarding _ o _) e).2 ((forwardingFits_spacing e).1 h)
    dsimp only
    cases w.lastOdometer with
    | none => exact ⟨_, _, _, rfl, hfits⟩
    | some m =>
      dsimp only
      split
      · exact ⟨_, _, _, rfl, hfits⟩
      · exact ⟨_, _, _, rfl, id⟩
  | marker k =>
    have hfits {b : Nat} (hb : w.burst ≤ k → b ≤ k) (h : w.forwardingFits) :
        (w.withForwarding w.decimation w.lastOdometer b).forwardingFits := by
      obtain ⟨hd, ho, hburst⟩ := (forwardingFits_marker e).1 h
      exact (forwardingFits_marker (w := w.withForwarding _ _ b) e).2 ⟨hd, ho, hb hburst⟩
    have hle : w.burst ≤ k → (if marker = true then k else w.burst) ≤ k := fun h => by
      split
      · exact le_refl k
      · exact h
    dsimp only
    generalize (if marker = true then k else w.burst) = b at hle ⊢
    split
    · exact ⟨_, _, _, rfl, hfits fun h => (Nat.sub_le b 1).trans (hle h)⟩
    · exact ⟨_, _, _, rfl, hfits hle⟩

/-- Forwarding selection in use. -/
theorem ViewFits.select (h : ViewFits w) (hs : w.state ≠ .disabled) (odometer : Word) (marker : Bool) :
    ViewFits (w.select odometer marker).2 := by
  obtain ⟨d, o, b, e, hfits⟩ := w.select_eq odometer marker
  rw [e]
  exact { h with forwarding := hfits h.forwarding, disabled := fun k => absurd k hs }

/-- Forwarding selection changes neither parameters nor state. -/
theorem View.select_stands (w : View) (odometer : Word) (marker : Bool) :
    (w.select odometer marker).2.params = w.params ∧ (w.select odometer marker).2.state = w.state := by
  obtain ⟨d, o, b, e, -⟩ := w.select_eq odometer marker
  rw [e]
  exact ⟨rfl, rfl⟩

/-! ### Write View (R61 to R64) -/

/-- A stored parameter set in its ranges (4.1). -/
structure ParamsFit (x : ViewParams) : Prop where
  ring : x.job.scheme = .ring → x.job.ringLength ∈ [2, 4, 8, 16]
  slots : x.job.scheme ≠ .unbuffered → 12 ≤ x.job.slotBase ∧ x.job.slotBase + x.job.schemeLength ≤ 64
  geometry : 64 ≤ x.job.width ∧ x.job.width ≤ 2048 ∧ x.job.width % 16 = 0 ∧ 16 ≤ x.job.height ∧ x.job.height ≤ 2048
  fill : x.job.fill ≤ 1023
  forwarding : ∃ n, x.forwardClass.takes n

/-- The parameters a Write View stores lie in their ranges (R61). -/
theorem paramsFit_of_viewParamsAt {p : List Byte} {new : ViewParams} (h : viewParamsAt p = some new) :
    ParamsFit new := by
  obtain ⟨x, hx, -, hrange, rfl⟩ := viewParamsAt_eq_some.1 h
  obtain ⟨-, ⟨hw1, hw2, hw3⟩, ⟨hh1, hh2⟩, hfill, hring, hslots⟩ := (jobParamsInRange_iff _).1 hrange
  refine ⟨fun e => ?_, fun e => ?_, ⟨hw1, hw2, hw3, hh1, hh2⟩, hfill, _, (forwardClass?_eq_some.1 hx.forwarding).2⟩
  · have e' : x.job.scheme = .ring := e
    have hlen : x.stored.job.ringLength = x.job.ringLength := if_pos e'
    exact hlen ▸ hring e'
  · obtain ⟨hlow, -, hhigh⟩ := hslots e
    have hbase : x.stored.job.slotBase = x.job.slotBase := if_neg e
    rw [hbase, ViewParams.stored, storedJobParams_schemeLength]
    exact ⟨hlow, hhigh⟩

/-- The buffering reads the scheme, the ring length, the state and the ring pointer. -/
theorem bufferFits_congr {w' : View} (hs : w'.params.job.scheme = w.params.job.scheme)
    (hl : w'.params.job.ringLength = w.params.job.ringLength) (hx : w'.state = w.state)
    (hp : w'.ringPointer = w.ringPointer) : w'.bufferFits ↔ w.bufferFits := by
  rw [View.bufferFits, View.bufferFits, hs, hl, hx, hp]

/-- A view whose parameters are rewritten keeps its state and pointers; its forwarding state stands with its class,
and is reset when the class changes (R64). -/
theorem View.rewrite_stands (w : View) (new : ViewParams) : (w.rewrite new).params = new
    ∧ (w.rewrite new).state = w.state ∧ (w.rewrite new).ringPointer = w.ringPointer
    ∧ (w.rewrite new).doubleIndex = w.doubleIndex := by
  unfold View.rewrite
  split <;> exact ⟨rfl, rfl, rfl, rfl⟩

/-- No restricted field differs (R63). -/
theorem restrictedChange_eq_false {old new : ViewParams} : restrictedChange old new = false ↔
    old.camera = new.camera ∧ old.job.width = new.job.width ∧ old.job.height = new.job.height
    ∧ old.job.format = new.job.format ∧ old.job.scheme = new.job.scheme ∧ old.job.ringLength = new.job.ringLength
    ∧ old.job.slotBase = new.job.slotBase := by
  simp only [restrictedChange, decide_eq_false_iff_not, not_or, ne_eq, not_not]

/-- Rewritten parameters in range, no restricted field changed out of DISABLED and no ACTIVE view without a mesh
selector (R61 to R64). -/
theorem ViewFits.rewrite {new : ViewParams} (h : ViewFits w) (hnew : ParamsFit new)
    (hkept : w.state ≠ .disabled → restrictedChange w.params new = false)
    (hmesh : w.state = .active → new.job.meshSelector ≠ 0) : ViewFits (w.rewrite new) := by
  obtain ⟨hparams, hstate, hpointer, hindex⟩ := w.rewrite_stands new
  have hforwarding : (w.rewrite new).forwardingFits
      ∧ (w.state = .disabled → (w.rewrite new).decimation = 0 ∧ (w.rewrite new).lastOdometer = none
        ∧ (w.rewrite new).burst = 0) := by
    obtain ⟨n, hn⟩ := hnew.forwarding
    unfold View.rewrite
    split
    · next e =>
      have hf := h.forwarding
      rw [View.forwardingFits, e] at hf
      refine ⟨hf, fun hs => ?_⟩
      obtain ⟨-, -, hzero⟩ := h.disabled hs
      exact hzero
    · refine ⟨forwardingFits_of_reset (fun m e => ?_) rfl rfl rfl, fun _ => ⟨rfl, rfl, rfl⟩⟩
      have e' : new.forwardClass = .decimate m := e
      rw [e'] at hn
      exact Nat.lt_of_lt_of_le Nat.two_pos hn.2.1
  refine
    { buffer := ?_
      range := fun hs => ?_
      geometry := fun _ => ?_
      fill := ?_
      forwarding := hforwarding.1
      active := fun hs => ?_
      disabled := fun hs => ?_ }
  · by_cases hs : w.state = .disabled
    · refine bufferFits_of_pointer_zero ?_ (fun _ => hstate.trans hs) ?_
      · rw [hpointer]
        obtain ⟨hzero, -⟩ := h.disabled hs
        exact hzero
      · rw [hparams]
        exact hnew.ring
    · obtain ⟨-, -, -, -, hscheme, hring, -⟩ := restrictedChange_eq_false.1 (hkept hs)
      refine (bufferFits_congr ?_ ?_ hstate hpointer).2 h.buffer
      · rw [hparams, hscheme]
      · rw [hparams, hring]
  · rw [hparams] at hs ⊢
    exact hnew.slots hs
  · rw [hparams]
    exact hnew.geometry
  · rw [hparams]
    exact hnew.fill
  · rw [hparams]
    exact hmesh (hstate ▸ hs)
  · rw [hpointer, hindex]
    obtain ⟨hring, hdouble, -⟩ := h.disabled (hstate.symm.trans hs)
    exact ⟨hring, hdouble, hforwarding.2 (hstate.symm.trans hs)⟩

end

end Sys2Proof.Machine
end

section
/-! PROOFS. The operations, the rows and the commands that leave what the views' invariants read (spec/01, spec/10,
spec/11). -/

namespace Sys2Proof.Machine

/-! ### Operations that leave the parts -/

section
variable (s : State)

@[simp] theorem viewParts_updPort (c : Fin 4) (f : Port → Port) : (s.updPort c f).viewParts = s.viewParts := rfl
@[simp] theorem viewParts_updSource (i : Fin 12) (f : SourceSlot → SourceSlot) :
    (s.updSource i f).viewParts = s.viewParts := rfl
@[simp] theorem viewParts_updOutput (x : Fin 52) (f : OutputSlot → OutputSlot) :
    (s.updOutput x f).viewParts = s.viewParts := rfl
@[simp] theorem viewParts_updRecord (n : RecordNumber) (f : Record → Record) :
    (s.updRecord n f).viewParts = s.viewParts := rfl
@[simp] theorem viewParts_setSticky (f : StickyFlag) : (s.setSticky f).viewParts = s.viewParts := rfl
@[simp] theorem viewParts_countCamera (c : Fin 4) (f : CameraCounters → CameraCounters) :
    (s.countCamera c f).viewParts = s.viewParts := rfl
@[simp] theorem viewParts_releaseSource (i : Fin 12) : (s.releaseSource i).viewParts = s.viewParts := rfl
@[simp] theorem viewParts_finalise (n : RecordNumber) (x : RecordStatus) :
    (s.finalise n x).viewParts = s.viewParts := rfl

/-- A change of one view's counters or last-good record. -/
theorem viewParts_updView {v : Fin 16} {f : View → View} (hf : ∀ w, (f w).bare = w.bare) :
    (s.updView v f).viewParts = s.viewParts :=
  viewParts_of_views (fun u => by
    rw [State.updView_views, pick_upd]
    split
    · exact hf _
    · rfl) rfl rfl

/-- A view's counters. -/
@[simp] theorem viewParts_countView (v : Fin 16) (f : ViewCounters → ViewCounters) :
    (s.countView v f).viewParts = s.viewParts := viewParts_updView s fun _ => rfl

/-- A notice. -/
@[simp] theorem viewParts_raise (n : Notice) : (s.raise n).viewParts = s.viewParts := by
  obtain ⟨q, k, i, h⟩ := raise_only s n
  rw [h]
  rfl

/-- A drop of a forward entry. -/
@[simp] theorem viewParts_reportDrop (e : ForwardEntry) (isNew : Bool) :
    (s.reportDrop e isNew).viewParts = s.viewParts := by
  rw [State.reportDrop, viewParts_raise, viewParts_setSticky, viewParts_countView]

/-- An offer to the Forward Queue. -/
@[simp] theorem viewParts_offer (e : ForwardEntry) : (s.offer e).viewParts = s.viewParts := by
  simp only [State.offer]
  split
  · rfl
  · split
    · split
      · exact viewParts_reportDrop ..
      · rfl
    · exact viewParts_reportDrop ..

end

/-- A run of operations leaves the parts when each does. -/
theorem viewParts_foldl {α : Type} {f : State → α → State} (h : ∀ s a, (f s a).viewParts = s.viewParts)
    (as : List α) (s : State) : (as.foldl f s).viewParts = s.viewParts := by
  induction as generalizing s with
  | nil => rfl
  | cons a as ih => rw [List.foldl_cons, ih, h]

/-! ### The camera packets (R5, R8, R11) -/

section
variable (c : Fin 4) (s : State)

/-- A frame damaged. -/
@[simp] theorem viewParts_damageFrame (r : Reception) (repairs : Nat) :
    (damageFrame c r repairs s).viewParts = s.viewParts := viewParts_raise ..

/-- A run of repairs. -/
@[simp] theorem viewParts_repairLines (n : Nat) : (repairLines c n s).viewParts = s.viewParts := by
  induction n generalizing s with
  | zero => rfl
  | succ n ih =>
    rw [repairLines, ih, repairLine]
    split
    · dsimp only
      split
      · exact viewParts_damageFrame ..
      · rfl
    all_goals rfl

/-- The sequence check. -/
@[simp] theorem viewParts_sequenceCheck (q : Half) : (sequenceCheck c q s).viewParts = s.viewParts := by
  rw [sequenceCheck_eq]
  rfl

/-- The dark-tracking update. -/
@[simp] theorem viewParts_trackBlack (r : Reception) : (trackBlack c r s).viewParts = s.viewParts := by
  rw [trackBlack_eq]
  rfl

/-- A frame begun or turned away. -/
theorem viewParts_beginFrame (f : FrameStartFields) : (beginFrame c f s).viewParts = s.viewParts := by
  rcases beginFrame_cases c f s with ⟨k, e⟩ | ⟨kind, i, -, e⟩ <;> rw [e] <;> rfl

/-- A line taken. -/
theorem viewParts_takeLine (r : Reception) (l : LineFields) : (takeLine c r l s).viewParts = s.viewParts := by
  simp only [takeLine, writeLine]
  split
  · rfl
  · split
    · rfl
    · split
      · split
        · exact viewParts_repairLines ..
        all_goals exact viewParts_repairLines ..
      · exact viewParts_repairLines ..

end

/-- A view's visit by a posted frame: an ACTIVE view may gain a job (R67, R81). -/
theorem SoundBut.visitView {s : State} (h : SoundBut [] s) {job : Fin 16 → Job} (hjob : ∀ v, (job v).view = v)
    (v : Fin 16) : SoundBut [] (visitView job s v) := by
  unfold Machine.visitView
  split
  · next hadmits =>
    have hactive : (pick s.views (job v).view).state = .active := by
      rw [hjob]
      simp only [View.admits, Bool.and_eq_true, beq_iff_eq] at hadmits
      exact hadmits.1.1.1
    split
    · refine SoundBut.congr (s := { s with jobs := s.jobs ++ [job v] }) ⟨⟨h.views.each, h.views.apart⟩, fun j hj => ?_,
        h.inFlight, h.closing⟩ (viewParts_countView ..)
      rcases List.mem_append.1 hj with hj | hj
      · exact h.queued j hj
      · rw [List.mem_singleton.1 hj]
        exact .inl hactive
    · exact h.congr (viewParts_countView ..)
  · exact h

/-- A frame offered to the views one after another (R81). -/
theorem SoundBut.offerFrame {s : State} (h : SoundBut [] s) (c : Fin 4) (r : Reception) :
    SoundBut [] (offerFrame c r s) := by
  unfold Machine.offerFrame
  induction List.finRange 16 generalizing s with
  | nil => exact h
  | cons v vs ih => exact ih (h.visitView (fun _ => rfl) v)

/-- A posted frame (R12). -/
theorem SoundBut.postFrame {s : State} (h : SoundBut [] s) (c : Fin 4) (r : Reception) :
    SoundBut [] (postFrame c r s) := by
  refine (SoundBut.offerFrame (h.congr ?_) c r).congr (viewParts_updSource ..)
  rw [viewParts_trackBlack, viewParts_sequenceCheck, viewParts_countCamera, viewParts_updPort]

/-- A frame closed (R11). -/
theorem SoundBut.closeFrame {s : State} (h : SoundBut [] s) (c : Fin 4) (r : Reception) (sent : Nat) :
    SoundBut [] (closeFrame c r sent s) := by
  have hrepair : SoundBut [] (repairLines c ((pick s.ports c).height - r.expected) (s.checkSent c sent)) := by
    refine h.congr ((viewParts_repairLines ..).trans ?_)
    rw [State.checkSent_eq]
    rfl
  unfold State.checkSent at hrepair
  simp only [Machine.closeFrame]
  split
  · exact hrepair.postFrame c _
  all_goals exact hrepair

/-! ### The rows that answer a next state with the same parts -/

/-- A row answers a next state, and leaves the parts. -/
def LeavesViews (i : Instr) : Prop := ∀ s, ∃ t, exec i s = .next t ∧ t.viewParts = s.viewParts

/-- A row answers a next state, and keeps the views and jobs sound; with sound tables. -/
def ServesViews (i : Instr) : Prop :=
  ∀ s, TablesSound s → SoundBut [] s → ∃ t, exec i s = .next t ∧ SoundBut [] t

/-- A row that leaves the parts keeps them sound. -/
theorem LeavesViews.serves {i : Instr} (h : LeavesViews i) : ServesViews i := fun s _ hs => by
  obtain ⟨t, ht, hp⟩ := h s
  exact ⟨t, ht, hs.congr hp⟩

/-- FRAME_START. -/
theorem servesViews_frameStart (c : Fin 4) (packet : List Byte) : ServesViews (.frameStart c packet) := fun s _ hs => by
  simp only [exec, execFrameStart]
  split
  · exact ⟨_, rfl, hs⟩
  · next f _ =>
    split
    · exact ⟨_, rfl, hs⟩
    · exact ⟨_, rfl, hs.congr (viewParts_beginFrame ..)⟩
    · exact ⟨_, rfl, hs.congr (viewParts_beginFrame ..)⟩
    · exact ⟨_, rfl, (hs.closeFrame c _ _).congr (viewParts_beginFrame ..)⟩

/-- LINE. -/
theorem leavesViews_line (c : Fin 4) (packet : List Byte) : LeavesViews (.line c packet) := fun s => by
  simp only [exec, execLine]
  split
  · exact ⟨_, rfl, rfl⟩
  · split
    · exact ⟨_, rfl, viewParts_takeLine ..⟩
    all_goals exact ⟨_, rfl, rfl⟩

/-- FRAME_END. -/
theorem servesViews_frameEnd (c : Fin 4) (packet : List Byte) : ServesViews (.frameEnd c packet) := fun s _ hs => by
  simp only [exec, execFrameEnd]
  split
  · exact ⟨_, rfl, hs⟩
  · split
    · exact ⟨_, rfl, hs.closeFrame c _ _⟩
    all_goals exact ⟨_, rfl, hs⟩

/-- DOWNLINK_PACKET. -/
theorem leavesViews_downlinkPacket (packet : List Byte) : LeavesViews (.downlinkPacket packet) := fun s => by
  simp only [exec, execDownlinkPacket]
  split
  · exact ⟨_, rfl, rfl⟩
  · refine ⟨_, rfl, ?_⟩
    simp only [dispatchPacket, bufferPacket]
    repeat' split
    all_goals rfl

/-- UNKNOWN_COMMAND. -/
theorem leavesViews_unknownCommand : LeavesViews .unknownCommand := fun s => by
  simp only [exec, execUnknownCommand]
  split
  · exact ⟨_, rfl, rfl⟩
  · split <;> exact ⟨_, rfl, rfl⟩

/-- BROADCAST_IGNORED. -/
theorem leavesViews_broadcastIgnored : LeavesViews .broadcastIgnored := fun s => by
  simp only [exec, execBroadcastIgnored]
  split
  · exact ⟨_, rfl, rfl⟩
  · split <;> exact ⟨_, rfl, rfl⟩

/-- STARTUP_SWEEP_END. -/
theorem leavesViews_startupSweepEnd : LeavesViews .startupSweepEnd := fun s => by
  refine ⟨_, rfl, ?_⟩
  split <;> rfl

/-- RELAY_BYTE. -/
theorem leavesViews_relayByte (b : Byte) : LeavesViews (.relayByte b) := fun s => by
  refine ⟨_, rfl, ?_⟩
  split <;> rfl

/-- RELAY_IDLE_TIMEOUT. -/
theorem leavesViews_relayIdleTimeout : LeavesViews .relayIdleTimeout := fun s => by
  refine ⟨_, rfl, ?_⟩
  split <;> rfl

/-- OUTPUT_PIXEL: the job in flight stays in flight. -/
theorem leavesViews_outputPixel : LeavesViews .outputPixel := fun s => by
  simp only [exec, execOutputPixel]
  split
  · exact ⟨_, rfl, rfl⟩
  · next f hf =>
    split
    · exact ⟨_, rfl, viewParts_eq_iff.2 ⟨fun _ => rfl, rfl, by rw [hf]; rfl⟩⟩
    · exact ⟨_, rfl, rfl⟩

/-! ### The Uplink Arbiter (R154 to R156) -/

/-- The end of a transmission. -/
theorem viewParts_sendEnd (x : Transmission) (truncated : Bool) (s : State) :
    (sendEnd x truncated s).viewParts = s.viewParts := by
  simp only [sendEnd]
  split
  · rfl
  · exact viewParts_countView (s.updOutput x.entry.mark.slot fun y => { y with held := false }) x.entry.view fun k =>
      { k with forwarded := satInc k.forwarded }

/-- A new transmission. -/
theorem viewParts_startTransmission (s : State) : (startTransmission s).viewParts = s.viewParts := by
  have hstale := viewParts_foldl (f := countStale) (fun t e => viewParts_countView t e.view _)
    (s.forwardQueue.takeWhile s.entryStale) s
  simp only [startTransmission]
  split
  · exact hstale
  · refine Eq.trans ?_ hstale
    simp only [beginTransmission]
    split <;> rfl

/-- UPLINK_PORT_READY. -/
theorem leavesViews_uplinkPortReady : LeavesViews .uplinkPortReady := fun s => by
  have himage : (sendImage s).viewParts = s.viewParts := by
    unfold sendImage
    split
    · split
      · exact viewParts_sendEnd ..
      · split
        · rfl
        · split
          · rfl
          · exact viewParts_sendEnd ..
    · split
      · rfl
      · exact viewParts_startTransmission s
  refine ⟨_, rfl, ?_⟩
  unfold arbitrate
  split
  · rfl
  · split
    · rfl
    · split
      · rfl
      · exact himage

end Sys2Proof.Machine
end

section
/-! PROOFS. The commands that leave what the views' invariants read, and the loads, which never stop on sound tables
(spec/01 to spec/03, spec/09 to spec/11; R22, R163). -/

namespace Sys2Proof.Machine

/-! ### The interpreter (R163) -/

/-- An answer is a response, from a state that satisfies `q`. -/
def Answer.leads (q : State → Prop) : Answer → Prop
  | .reply t _ _ => q t
  | .stop _ => False

/-- A command's rule that answers and leaves the parts the views' invariants read. -/
def RuleLeaves (rule : List Byte → State → Answer) : Prop :=
  ∀ payload s, (rule payload s).leads fun t => t.viewParts = s.viewParts

/-- A command's rule that answers and keeps the views and jobs sound; with sound tables. -/
def RuleServes (rule : List Byte → State → Answer) : Prop :=
  ∀ payload s, TablesSound s → SoundBut [] s → (rule payload s).leads (SoundBut [])

/-- An answer that leads to a stronger property. -/
theorem Answer.leads.imp {q q' : State → Prop} {a : Answer} (h : a.leads q) (hq : ∀ t, q t → q' t) : a.leads q' := by
  cases a with
  | reply t status data => exact hq t h
  | stop f => exact h

/-- A rule that leaves the parts keeps them sound. -/
theorem RuleLeaves.serves {rule : List Byte → State → Answer} (h : RuleLeaves rule) : RuleServes rule :=
  fun payload s _ hs => (h payload s).imp fun _ hp => hs.congr hp

/-- The checks of R163 answer, or the rule does. -/
theorem RuleServes.checked {rule : List Byte → State → Answer} (h : RuleServes rule) (c : Command)
    (payload : List Byte) {s : State} (ht : TablesSound s) (hs : SoundBut [] s) :
    (checked c payload rule s).leads (SoundBut []) := by
  rcases checked_cases c payload rule s with ⟨-, -, e⟩ | ⟨-, -, e⟩ | ⟨-, -, e⟩ | ⟨-, e⟩ | ⟨-, e⟩ <;> rw [e]
  · exact hs
  · exact hs.congr rfl
  · exact hs
  · exact hs
  · exact h payload s ht hs

/-- A row of the interpreter answers a next state when its command's rule does. -/
theorem RuleServes.row {rule : List Byte → State → Answer} (h : RuleServes rule) (c : Command) {s : State}
    (ht : TablesSound s) (hs : SoundBut [] s) : ∃ t, runCommand c rule s = .next t ∧ SoundBut [] t := by
  rcases runCommand_cases c rule s with e | ⟨p, rest, -, hrun⟩
  · exact ⟨s, e, hs⟩
  · have hleads := h.checked c p.payload (s := { s with commandBuffer := rest }) (ht.congr rfl) (hs.congr rfl)
    rcases hrun with ⟨t, status, data, hu, e⟩ | ⟨f, hf, e⟩
    · rw [hu] at hleads
      exact ⟨_, e, SoundBut.congr hleads rfl⟩
    · rw [hf] at hleads
      exact absurd hleads id

/-- A row also executed by broadcast answers a next state when its rule does and its effect keeps the views. -/
theorem RuleServes.broadcastRow {rule : List Byte → State → Answer} {effect : List Byte → State → State}
    (h : RuleServes rule) (he : ∀ payload s, SoundBut [] s → SoundBut [] (effect payload s)) (c : Command) {s : State}
    (ht : TablesSound s) (hs : SoundBut [] s) :
    ∃ t, runBroadcastable c rule effect s = .next t ∧ SoundBut [] t := by
  rcases runBroadcastable_cases c rule effect s with e | ⟨p, rest, -, -, -, -, e⟩
  · exact e ▸ h.row c ht hs
  · exact ⟨_, e, he _ _ (hs.congr rfl)⟩

/-! ### Commands that leave the parts

In every branch of each of these rules the fields that change are none the views' invariants read. -/

theorem ruleLeaves_identify : RuleLeaves identifyRule := fun _ _ => rfl

theorem ruleLeaves_getStatus : RuleLeaves getStatusRule := fun _ _ => rfl

theorem ruleLeaves_clearStatus : RuleLeaves clearStatusRule := fun payload s => by
  simp only [clearStatusRule]
  split <;> exact rfl

theorem ruleLeaves_setNoticeMask : RuleLeaves setNoticeMaskRule := fun payload s => by
  simp only [setNoticeMaskRule]
  split <;> exact rfl

theorem ruleLeaves_readCounters : RuleLeaves readCountersRule := fun payload s => by
  simp only [readCountersRule]
  split
  · exact rfl
  · next clear _ =>
    split
    · split
      · exact rfl
      · cases clear <;> exact rfl
    · split
      · exact rfl
      · next v _ =>
        cases clear with
        | false => exact rfl
        | true => exact viewParts_countView s v fun _ => ViewCounters.zero
    · cases clear <;> exact rfl
    · exact rfl

theorem ruleLeaves_setCamera : RuleLeaves setCameraRule := fun payload s => by
  simp only [setCameraRule]
  repeat' split
  all_goals exact rfl

theorem ruleLeaves_cameraEnable : RuleLeaves cameraEnableRule := fun payload s => by
  simp only [cameraEnableRule, enableCamera, disableCamera]
  repeat' split
  all_goals exact rfl

theorem ruleLeaves_setBlackLevel : RuleLeaves setBlackLevelRule := fun payload s => by
  simp only [setBlackLevelRule]
  split <;> exact rfl

theorem ruleLeaves_writeDescriptor : RuleLeaves writeDescriptorRule := fun payload s => by
  simp only [writeDescriptorRule]
  repeat' split
  all_goals exact rfl

theorem ruleLeaves_readDescriptor : RuleLeaves readDescriptorRule := fun payload s => by
  simp only [readDescriptorRule]
  repeat' split
  all_goals exact rfl

theorem ruleLeaves_clearAccessed : RuleLeaves clearAccessedRule := fun _ _ => rfl

theorem ruleLeaves_lock (next : LockState → Option LockState) : RuleLeaves (lockRule next) := fun payload s => by
  simp only [lockRule]
  repeat' split
  all_goals exact rfl

theorem ruleLeaves_setWindow : RuleLeaves setWindowRule := fun payload s => by
  simp only [setWindowRule]
  repeat' split
  all_goals exact rfl

theorem ruleLeaves_protectionLock : RuleLeaves protectionLockRule := fun _ _ => rfl

theorem ruleLeaves_loadOpen : RuleLeaves loadOpenRule := fun payload s => by
  simp only [loadOpenRule]
  repeat' split
  all_goals exact rfl

theorem ruleLeaves_loadData : RuleLeaves loadDataRule := fun payload s => by
  simp only [loadDataRule]
  repeat' split
  all_goals exact rfl

theorem ruleLeaves_loadCancel : RuleLeaves loadCancelRule := fun payload s => by
  simp only [loadCancelRule]
  split <;> exact rfl

theorem ruleLeaves_streamOpen : RuleLeaves streamOpenRule := fun payload s => by
  simp only [streamOpenRule]
  repeat' split
  all_goals exact rfl

theorem ruleLeaves_streamCancel : RuleLeaves streamCancelRule := fun payload s => by
  simp only [streamCancelRule]
  split <;> exact rfl

theorem ruleLeaves_readView : RuleLeaves readViewRule := fun payload s => by
  simp only [readViewRule]
  split <;> exact rfl

theorem ruleLeaves_readRecords : RuleLeaves readRecordsRule := fun payload s => by
  simp only [readRecordsRule]
  split <;> exact rfl

/-- The Time Tag Counter's update. -/
theorem viewParts_setTimeTag (payload : List Byte) (s : State) : (setTimeTag payload s).viewParts = s.viewParts := by
  unfold setTimeTag
  split <;> rfl

theorem ruleLeaves_setTimeTag : RuleLeaves setTimeTagRule := fun payload s => by
  simp only [setTimeTagRule]
  split
  · exact viewParts_setTimeTag payload s
  · exact rfl

theorem ruleLeaves_uplinkPause : RuleLeaves uplinkPauseRule := fun _ _ => rfl

theorem ruleLeaves_uplinkResume : RuleLeaves uplinkResumeRule := fun _ _ => rfl

theorem ruleLeaves_uplinkFlush : RuleLeaves uplinkFlushRule := fun _ _ => rfl

/-- A recall at most offers an entry to the Forward Queue. -/
theorem viewParts_recallRecord {n : RecordNumber} {s t : State} {d : Disposition}
    (h : recallRecord n s = .ok (t, d)) : t.viewParts = s.viewParts := by
  unfold recallRecord at h
  repeat' split at h
  all_goals cases h
  · rfl
  · exact viewParts_offer s _

theorem ruleLeaves_recallFrame : RuleLeaves recallFrameRule := fun payload s => by
  simp only [recallFrameRule]
  split
  · exact rfl
  · next h => exact viewParts_recallRecord h

theorem ruleLeaves_recallLatest : RuleLeaves recallLatestRule := fun payload s => by
  simp only [recallLatestRule]
  split
  · exact rfl
  · split
    · exact rfl
    · split
      · exact rfl
      · next h => exact viewParts_recallRecord h

/-! ### Commands that address the store: on sound tables every word lies in it (R22, log 22) -/

/-- Load Commit (R47). -/
theorem ruleServes_loadCommit : RuleServes loadCommitRule := fun payload s ht hs => by
  simp only [loadCommitRule]
  split
  · exact hs.congr rfl
  · exact hs.congr rfl
  · next d target buffer hu =>
    have hfits := ht.loads
    rw [hu] at hfits
    obtain ⟨-, -, -, hstore, -⟩ := hfits
    rw [if_neg (not_not.2 ((inStore_iff target).2 hstore))]
    repeat' split
    all_goals exact hs.congr rfl

/-- Stream Data (R52). -/
theorem ruleServes_streamData : RuleServes streamDataRule := fun payload s ht hs => by
  simp only [streamDataRule]
  split
  · exact hs.congr rfl
  · exact hs.congr rfl
  · next d target streamed hu =>
    have hfits := ht.loads
    rw [hu] at hfits
    obtain ⟨-, hstore, -⟩ := hfits
    split
    · exact hs
    · split
      · exact hs
      · rw [if_neg (not_not.2 ((inStore_iff target).2 hstore))]
        split <;> exact hs.congr rfl

/-- Read Table (R56). -/
theorem ruleServes_readTable : RuleServes readTableRule := fun payload s ht hs => by
  simp only [readTableRule]
  split
  · exact hs
  · next d _ =>
    split
    · exact hs
    · split
      · exact hs
      · next hspan =>
        rw [if_neg (not_not.2 ((inStore_iff _).2 (ht.inSpan hspan)))]
        exact hs

end Sys2Proof.Machine
end

section
/-! PROOFS. The view commands keep the views and jobs sound (spec/04 R61 to R70). -/

namespace Sys2Proof.Machine

/-! ### Write View (R61 to R64) -/

/-- Some other view's slots meet the new range (R62). -/
theorem slotConflict_iff (s : State) (v : Fin 16) (new : ViewParams) : slotConflict s v new = true ↔
    ∃ u, u ≠ v ∧ new.job.slotRange.overlaps (pick s.views u).params.job.slotRange = true := by
  simp [slotConflict]

/-- Write View (R61 to R64). -/
theorem ruleServes_writeView : RuleServes writeViewRule := fun payload s _ hs => by
  simp only [writeViewRule]
  split
  · next v new _ hnew =>
    split
    · exact hs
    · next hstate =>
      rw [not_or, not_and, not_and, Bool.not_eq_true] at hstate
      split
      · exact hs
      · next hslots =>
        obtain ⟨hparams, hstands, -, -⟩ := (pick s.views v).rewrite_stands new
        refine hs.updView_apart ((hs.views.each v).rewrite (paramsFit_of_viewParamsAt hnew) hstate.1 hstate.2)
          (fun u hu => ?_) (hstands.symm ▸ hs.serves v) fun _ hu _ => hu
        rw [hparams]
        exact Bool.eq_false_of_not_eq_true fun k => hslots ((slotConflict_iff s v new).2 ⟨u, hu, k⟩)
  · exact hs

/-! ### View Activate and View Hold (R68, R69) -/

/-- View Activate. -/
theorem ruleServes_viewActivate : RuleServes viewActivateRule := fun payload s _ hs => by
  simp only [viewActivateRule]
  split
  · exact hs
  · next v _ =>
    have hgoes (hscheme : (pick s.views v).params.job.scheme ≠ .unbuffered)
        (hmesh : (pick s.views v).params.job.meshSelector ≠ 0) :
        SoundBut [] (s.updView v fun x => { x with state := .active }) :=
      hs.updView ((hs.views.each v).with_state hscheme (by decide) fun _ => hmesh) rfl
        ⟨fun _ => .inl rfl, fun _ => .inl rfl, nofun⟩
    split
    · split
      · exact hs
      · next h =>
        rw [not_or] at h
        exact hgoes h.1 h.2
    · next hheld =>
      split
      · exact hs
      · next h => exact hgoes ((hs.views.each v).scheme_ne (by simp [hheld])) h
    all_goals exact hs

/-- View Hold. -/
theorem ruleServes_viewHold : RuleServes viewHoldRule := fun payload s _ hs => by
  simp only [viewHoldRule]
  split
  · exact hs
  · next v _ =>
    split
    · next hactive =>
      have hscheme : (pick s.views v).params.job.scheme ≠ .unbuffered :=
        (hs.views.each v).scheme_ne (by simp [hactive])
      split
      · next hnone =>
        obtain ⟨hjobs, hflight⟩ := (outstanding_eq_zero_iff s v).1 hnone
        exact hs.updView ((hs.views.each v).with_state hscheme (by decide) nofun) rfl
          ⟨fun ⟨j, hj, e⟩ => absurd e (hjobs j hj), fun ⟨f, hf, e⟩ => absurd e (hflight f hf), nofun⟩
      · exact hs.updView ((hs.views.each v).with_state hscheme (by decide) nofun) rfl
          ⟨fun _ => .inr rfl, fun _ => .inr (.inl rfl), nofun⟩
    all_goals exact hs

/-! ### View Disable and Soft Reset (R70, R78) -/

section
variable {s : State} {vs : List (Fin 16)}

/-- Queued jobs removed and counted (R70, R95). -/
theorem SoundBut.removeJobs (h : SoundBut vs s) (gone : Job → Bool) : SoundBut vs (s.removeJobs gone) := by
  rw [removeJobs_eq]
  exact (h.filter_jobs fun j => !gone j).congr (viewParts_of_views (fun v => by rw [pick_tabulate]; rfl) rfl rfl)

/-- A view without queued jobs goes to CLOSING while its job is in flight, and otherwise to DISABLED (R70). -/
theorem SoundBut.disableView (h : SoundBut vs s) (v : Fin 16) : SoundBut vs (disableView v s) := by
  have hgone : ¬ ∃ j ∈ (s.removeJobs fun j => j.view == v).jobs, j.view = v := by
    rw [removeJobs_eq]
    rintro ⟨j, hj, e⟩
    simpa [e] using List.of_mem_filter hj
  have hremoved := h.removeJobs fun j => j.view == v
  simp only [Machine.disableView]
  split
  · next hin =>
    have hnot : (pick (s.removeJobs fun j => j.view == v).views v).state ≠ .disabled := fun e => by
      simpa [e] using (hremoved.serves v).inFlight ((inFlightOf_iff _ v).1 hin)
    exact hremoved.updView ((hremoved.views.each v).with_state ((hremoved.views.each v).scheme_ne hnot)
      (by decide) nofun) rfl ⟨fun k => absurd k hgone, fun _ => .inr (.inr rfl), fun _ => .inl hin⟩
  · next hin =>
    exact hremoved.updView (hremoved.views.each v).disable rfl
      ⟨fun k => absurd k hgone, fun k => absurd ((inFlightOf_iff _ v).2 k) hin, nofun⟩

end

/-- View Disable (R70). -/
theorem ruleServes_viewDisable : RuleServes viewDisableRule := fun payload s _ hs => by
  simp only [viewDisableRule]
  split
  · exact hs
  · exact hs.disableView _

/-- Soft Reset leaves every view DISABLED and no job (R78, R170). -/
theorem SoundBut.softReset {s : State} (h : SoundBut [] s) : SoundBut [] (softReset s) := by
  have hview : ∀ v, pick (Machine.softReset s).views v = (pick s.views v).softReset := fun v =>
    pick_updAll s.views View.softReset v
  refine ⟨⟨fun v => ?_, fun u v huv => ?_⟩, fun j hj => absurd hj List.not_mem_nil,
    fun f hf => absurd hf (Option.not_mem_none f), fun v hv => ?_⟩
  · rw [hview]
    exact (h.views.each v).softReset
  · rw [hview, hview]
    exact h.views.apart u v huv
  · rw [hview] at hv
    cases hv

end Sys2Proof.Machine
end

section
/-! PROOFS. The engine keeps the views and jobs sound and always has an output slot to write; so does every row and
every step (spec/04 R62 to R74, spec/05 R82). -/

namespace Sys2Proof.Machine

/-! ### Leaving the waiting states (R71) -/

section
variable {s t : State} {vs ws : List (Fin 16)}

/-- More views may be excepted. -/
theorem SoundBut.mono (h : SoundBut vs s) (hsub : ∀ v ∈ vs, v ∈ ws) : SoundBut ws s :=
  { h with closing := fun v hv => (h.closing v hv).imp_right (hsub v) }

/-- A view that has left its waiting state is not CLOSING. -/
theorem leaveWaiting_state_ne (w : View) : w.leaveWaiting.state ≠ .closing := by
  unfold View.leaveWaiting
  cases h : w.state <;> simp [View.disable, h]

/-- A view settled is excepted no longer: without a job it leaves CLOSING, with its job in flight it may stay, and a
queued job is not of a CLOSING view. -/
theorem SoundBut.settle {v : Fin 16} (h : SoundBut (v :: vs) s) : SoundBut vs (s.settle v) := by
  unfold State.settle
  split
  · next hnone =>
    obtain ⟨hjobs, hflight⟩ := (outstanding_eq_zero_iff s v).1 hnone
    refine h.updView_apart (h.views.each v).leaveWaiting (fun u hu => ?_)
      ⟨fun ⟨j, hj, e⟩ => absurd e (hjobs j hj), fun ⟨f, hf, e⟩ => absurd e (hflight f hf),
        fun k => absurd k (leaveWaiting_state_ne _)⟩ fun u hu hne => (List.mem_cons.1 hu).resolve_left hne
    rw [View.leaveWaiting_params]
    exact h.views.apart v u (Ne.symm hu)
  · next hsome =>
    refine { h with closing := fun u hu => ?_ }
    rcases h.closing u hu with k | k
    · exact .inl k
    · rcases List.mem_cons.1 k with rfl | k
      · left
        rw [inFlightOf_iff]
        by_contra hno
        refine hsome ((outstanding_eq_zero_iff s u).2 ⟨fun j hj e => ?_, fun f hf e => hno ⟨f, hf, e⟩⟩)
        simpa [hu] using (h.serves u).queued ⟨j, hj, e⟩
      · exact .inr k

/-- The excepted views settled one after another. -/
theorem SoundBut.foldl_settle (h : SoundBut vs s) : SoundBut [] (vs.foldl State.settle s) := by
  induction vs generalizing s with
  | nil => exact h
  | cons v vs ih => exact ih h.settle

/-- A view settled once more. -/
theorem SoundBut.settle_again (h : SoundBut vs s) (v : Fin 16) : SoundBut vs (s.settle v) :=
  SoundBut.settle (h.mono fun _ hu => List.mem_cons_of_mem v hu)

/-! ### The start of a job (R82 to R90) -/

/-- Slot numbers 12 to 63 are output slots (R134). -/
theorem outputIndex_eq_some {n : Nat} (h1 : 12 ≤ n) (h2 : n < 64) : ∃ x, outputIndex n = some x :=
  ⟨⟨n - 12, by omega⟩, by rw [outputIndex, if_pos h1, below?_eq_some]⟩

/-- A view in use has an output slot to write (R84, R91). -/
theorem ViewFits.chosenSlot {w : View} (h : ViewFits w) (hs : w.params.job.scheme ≠ .unbuffered) :
    ∃ x, chosenSlot w = some x := by
  obtain ⟨hlow, hhigh⟩ := h.range hs
  have hbuffer := h.buffer
  unfold View.bufferFits at hbuffer
  unfold Machine.chosenSlot
  unfold JobParams.schemeLength at hhigh
  cases e : w.params.job.scheme with
  | unbuffered => exact absurd e hs
  | single =>
    rw [e] at hhigh
    exact outputIndex_eq_some hlow (Nat.lt_of_succ_le hhigh)
  | double =>
    rw [e] at hhigh
    dsimp only at hhigh
    exact outputIndex_eq_some (by omega) (by omega)
  | ring =>
    rw [e] at hhigh hbuffer
    obtain ⟨-, hpointer⟩ := hbuffer
    dsimp only at hhigh
    exact outputIndex_eq_some (by omega) (by omega)

/-- A record created (R140). -/
@[simp] theorem viewParts_createRecord (j : Job) (s : State) : (createRecord j s).viewParts = s.viewParts := by
  simp only [createRecord]
  split
  · rw [viewParts_raise]
    rfl
  · rfl

/-- The accessed flags of latched descriptors set (R86). -/
@[simp] theorem viewParts_markAccessed (s : State) (ds : List (Fin 64)) :
    (s.markAccessed ds).viewParts = s.viewParts := by
  rw [markAccessed_eq]
  rfl

/-- A job skipped (R84). -/
theorem SoundBut.skipJob (h : SoundBut [] s) (j : Job) (n : RecordNumber) : SoundBut [] (skipJob j n s) := by
  refine SoundBut.settle_again (h.congr ?_) j.view
  rw [viewParts_releaseSource, viewParts_countView, viewParts_finalise, viewParts_updRecord]

/-- A job that faults (R89). -/
theorem SoundBut.faultJob (h : SoundBut [] s) (j : Job) (n : RecordNumber) (x : TableFailure) :
    SoundBut [] (faultJob j n x s) := by
  refine SoundBut.settle_again (h.congr ?_) j.view
  rw [viewParts_releaseSource, viewParts_raise, viewParts_setSticky, viewParts_countView, viewParts_finalise]

/-- A job of an ACTIVE or DRAINING view goes in flight. -/
theorem SoundBut.begin {f : Flight} (h : SoundBut [] s) (hidle : s.flight = none)
    (hj : (pick s.views f.job.view).state = .active ∨ (pick s.views f.job.view).state = .draining) :
    SoundBut [] { s with flight := some f } :=
  { h with
    views := ⟨h.views.each, h.views.apart⟩
    inFlight := fun g hg => by
      cases hg
      exact hj.imp_right .inl
    closing := fun v hv => absurd hv (h.not_closing hidle v) }

/-- The stages of a job begin: it is in flight (R90). -/
theorem SoundBut.beginStages {j : Job} (h : SoundBut [] s) (hidle : s.flight = none)
    (hj : (pick s.views j.view).state = .active ∨ (pick s.views j.view).state = .draining) (n : RecordNumber)
    (x : Fin 52) (l : Latched) (t : TableLatch) (m : Mesh) : SoundBut [] (beginStages j n x l t m s) := by
  have hbegun := h.begin (f := (Machine.beginStages j n x l t m s).flight.get rfl) hidle hj
  exact hbegun.congr rfl

/-- Whether a job is in flight is read from the parts. -/
theorem flight_none_of_viewParts (h : t.viewParts = s.viewParts) (hs : s.flight = none) : t.flight = none := by
  obtain ⟨-, -, hflight⟩ := viewParts_eq_iff.1 h
  simpa [hs] using hflight

/-- The state of a view is read from the parts. -/
theorem state_of_viewParts (h : t.viewParts = s.viewParts) (v : Fin 16) :
    (pick t.views v).state = (pick s.views v).state :=
  (congrArg View.state ((viewParts_eq_iff.1 h).1 v) :)

/-- A job past the held test faults, or is in flight (R85 to R90). -/
theorem SoundBut.latchJob (h : SoundBut [] s) {j : Job} (n : RecordNumber) (x : Fin 52) (hidle : s.flight = none)
    (hj : (pick s.views j.view).state = .active ∨ (pick s.views j.view).state = .draining) :
    SoundBut [] (latchJob j n x s) := by
  have hmarked (ds : List (Fin 64)) (f : Record → Record) :
      ((s.markAccessed ds).updRecord n f).viewParts = s.viewParts := by
    rw [viewParts_updRecord, viewParts_markAccessed]
  simp only [Machine.latchJob]
  split
  · exact (h.congr (hmarked ..)).faultJob ..
  · split
    · refine (h.congr (hmarked ..)).beginStages (flight_none_of_viewParts (hmarked ..) hidle) ?_ ..
      rw [state_of_viewParts (hmarked ..)]
      exact hj
    · exact (h.congr (hmarked ..)).faultJob ..

/-- The engine's start of the head job always has a slot to write, and keeps the views and jobs sound (R82). -/
theorem startHead_serves (h : SoundBut [] s) : ∃ t, startHead s = .ok t ∧ SoundBut [] t := by
  unfold startHead
  split
  · next j rest hidle hjobs =>
    have hstate := h.queued j (hjobs ▸ List.mem_cons_self)
    have hrec := viewParts_createRecord j { s with jobs := rest }
    have htaken : SoundBut [] (createRecord j { s with jobs := rest }) := by
      refine SoundBut.congr (s := { s with jobs := rest }) ⟨⟨h.views.each, h.views.apart⟩, fun i hi => ?_, h.inFlight,
        h.closing⟩ hrec
      exact h.queued i (hjobs ▸ List.mem_cons_of_mem j hi)
    have hstate' := state_of_viewParts hrec j.view
    have hscheme := (htaken.views.each j.view).scheme_ne (by rcases hstate with e | e <;> simp [hstate', e])
    obtain ⟨x, hx⟩ := (htaken.views.each j.view).chosenSlot hscheme
    simp only [startJob, hx]
    split
    · exact ⟨_, rfl, htaken.skipJob ..⟩
    · exact ⟨_, rfl, htaken.latchJob _ x (flight_none_of_viewParts hrec hidle) (hstate' ▸ hstate)⟩
  · exact ⟨s, rfl, h⟩
  · exact ⟨s, rfl, h⟩

/-! ### The end of a job and Engine Abort (R94, R95) -/

/-- The engine comes to rest after a change that leaves the parts: the view may have yet to leave CLOSING. -/
theorem SoundBut.landed_of {f : Flight} (h : SoundBut vs s) (hf : s.flight = some f)
    (hp : t.viewParts = s.viewParts) : SoundBut (f.job.view :: vs) { t with pins := [], flight := none } := by
  obtain ⟨hviews, hjobs, -⟩ := viewParts_eq_iff.1 hp
  exact (h.landed hf).congr (viewParts_eq_iff.2 ⟨hviews, hjobs, rfl⟩)

/-- The buffer's advance (R137, R138). -/
theorem SoundBut.advanceBuffer {v : Fin 16} (h : SoundBut vs s) (n : RecordNumber) (degraded : Bool)
    (hv : (pick s.views v).state ≠ .disabled) :
    SoundBut vs (advanceBuffer v n degraded s)
      ∧ (pick (advanceBuffer v n degraded s).views v).state ≠ .disabled := by
  obtain ⟨hparams, hstate⟩ := (pick s.views v).advance_stands
  have hadvanced : SoundBut vs (s.updView v fun _ => (pick s.views v).advance.1) :=
    h.updView_state ((h.views.each v).advance hv) hparams hstate
  have huse : (pick (s.updView v fun _ => (pick s.views v).advance.1).views v).state ≠ .disabled := by
    rw [State.updView_views, pick_upd_same, hstate]
    exact hv
  simp only [Machine.advanceBuffer]
  split
  · exact ⟨h, hv⟩
  · split
    · exact ⟨hadvanced.congr (viewParts_raise ..), by rwa [state_of_viewParts (viewParts_raise ..)]⟩
    · exact ⟨hadvanced, huse⟩

/-- Forwarding selection (R146). -/
theorem SoundBut.selectRecord {f : Flight} (h : SoundBut vs s) (mark : SlotMark)
    (hv : (pick s.views f.job.view).state ≠ .disabled) : SoundBut vs (selectRecord f mark s) := by
  obtain ⟨hparams, hstate⟩ :=
    (pick s.views f.job.view).select_stands f.job.header.odometer f.job.header.marker
  have hselected := h.updView_state (f := fun _ => ((pick s.views f.job.view).select f.job.header.odometer
    f.job.header.marker).2) ((h.views.each f.job.view).select hv _ _) hparams hstate
  simp only [Machine.selectRecord]
  split
  · exact hselected.congr (viewParts_offer ..)
  · exact hselected

/-- The end of a job (R94). -/
theorem SoundBut.endJob {f : Flight} (h : SoundBut [] s) (hf : s.flight = some f) : SoundBut [] (endJob f s) := by
  have hdone : ((completeRecord f (jobDegraded f s) s).releaseSource f.job.slot).viewParts = s.viewParts := by
    rw [viewParts_releaseSource, completeRecord, viewParts_countView, viewParts_finalise, viewParts_updRecord]
  have hlanded := h.landed_of hf hdone
  have huse : (pick ((completeRecord f (jobDegraded f s) s).releaseSource f.job.slot).views f.job.view).state
      ≠ .disabled := by
    rw [state_of_viewParts hdone]
    rcases h.inFlight f hf with e | e | e <;> simp [e]
  obtain ⟨hadvanced, huse⟩ := hlanded.advanceBuffer f.record (jobDegraded f s) huse
  exact ((hadvanced.selectRecord _ huse).congr
    (viewParts_updView (f := fun w => { w with lastGood := some f.record }) _ fun _ => rfl)).settle

/-- The job in flight stopped (R95). -/
theorem SoundBut.abortFlight (h : SoundBut [] s) :
    SoundBut (s.flight.toList.map fun f => f.job.view) (abortFlight s) := by
  unfold Machine.abortFlight
  split
  · next f hf =>
    rw [hf]
    have hcounted : (((s.finalise f.record .aborted).countView f.job.view fun k =>
        { k with aborted := satInc k.aborted }).releaseSource f.job.slot).viewParts = s.viewParts := by
      rw [viewParts_releaseSource, viewParts_countView, viewParts_finalise]
    exact h.landed_of hf hcounted
  · exact h.mono nofun

/-- An Engine Abort before the next start (R95). -/
theorem SoundBut.abortEngine (h : SoundBut [] s) (flush : Bool) : SoundBut [] (abortEngine flush s) := by
  refine SoundBut.foldl_settle ?_
  have hmono := h.abortFlight.mono (ws := abortedViews flush s) fun v hv => List.mem_append_left _ hv
  split
  · exact hmono.removeJobs _
  · exact hmono

/-- Engine Abort (R95). -/
theorem ruleServes_engineAbort : RuleServes engineAbortRule := fun payload s _ hs => by
  simp only [engineAbortRule]
  split
  · exact hs
  · next flush _ =>
    obtain ⟨t, ht, hsound⟩ := startHead_serves (hs.abortEngine flush)
    rw [ht]
    exact hsound

/-- JOB_START. -/
theorem servesViews_jobStart : ServesViews .jobStart := fun s _ hs => by
  obtain ⟨t, ht, hsound⟩ := startHead_serves hs
  exact ⟨t, congrArg engineOutcome ht, hsound⟩

/-- JOB_END. -/
theorem servesViews_jobEnd : ServesViews .jobEnd := fun s _ hs => by
  simp only [exec, execJobEnd]
  split
  · exact ⟨_, rfl, hs⟩
  · next f hf =>
    split
    · exact ⟨_, rfl, hs⟩
    · obtain ⟨t, ht, hsound⟩ := startHead_serves (hs.endJob hf)
      exact ⟨t, congrArg engineOutcome ht, hsound⟩

end

/-! ### Every row -/

/-- POWER_ON_RESET. -/
theorem servesViews_powerOnReset (strap : Fin 15) : ServesViews (.powerOnReset strap) := fun _ _ _ =>
  ⟨_, rfl, ((soundBut_nil_iff _).2 ⟨viewsSound_reset, jobsSound_reset⟩).congr rfl⟩

/-- Every row answers a next state and keeps the views and jobs sound. -/
theorem exec_serves (i : Instr) : ServesViews i := by
  cases i with
  | powerOnReset strap => exact servesViews_powerOnReset strap
  | startupSweepEnd => exact leavesViews_startupSweepEnd.serves
  | frameStart c packet => exact servesViews_frameStart c packet
  | line c packet => exact (leavesViews_line c packet).serves
  | frameEnd c packet => exact servesViews_frameEnd c packet
  | cameraPacketIgnored c packet => exact fun s _ hs => ⟨s, rfl, hs⟩
  | downlinkPacket packet => exact (leavesViews_downlinkPacket packet).serves
  | unknownCommand => exact leavesViews_unknownCommand.serves
  | broadcastIgnored => exact leavesViews_broadcastIgnored.serves
  | identify => exact fun _ => ruleLeaves_identify.serves.row _
  | getStatus => exact fun _ => ruleLeaves_getStatus.serves.row _
  | clearStatus => exact fun _ => ruleLeaves_clearStatus.serves.row _
  | readCounters => exact fun _ => ruleLeaves_readCounters.serves.row _
  | setNoticeMask => exact fun _ => ruleLeaves_setNoticeMask.serves.row _
  | softReset =>
    exact fun _ => RuleServes.broadcastRow (rule := softResetRule) (fun _ _ _ hs => hs.softReset)
      (fun _ _ hs => hs.softReset) _
  | setCamera => exact fun _ => ruleLeaves_setCamera.serves.row _
  | cameraEnable => exact fun _ => ruleLeaves_cameraEnable.serves.row _
  | setBlackLevel => exact fun _ => ruleLeaves_setBlackLevel.serves.row _
  | writeDescriptor => exact fun _ => ruleLeaves_writeDescriptor.serves.row _
  | readDescriptor => exact fun _ => ruleLeaves_readDescriptor.serves.row _
  | clearAccessedDescriptor => exact fun _ => ruleLeaves_clearAccessed.serves.row _
  | lockDescriptor => exact fun _ => (ruleLeaves_lock lockNext).serves.row _
  | unlockDescriptor => exact fun _ => (ruleLeaves_lock unlockNext).serves.row _
  | lockDownDescriptor => exact fun _ => (ruleLeaves_lock lockDownNext).serves.row _
  | setProtectionWindow => exact fun _ => ruleLeaves_setWindow.serves.row _
  | protectionLock => exact fun _ => ruleLeaves_protectionLock.serves.row _
  | loadOpen => exact fun _ => ruleLeaves_loadOpen.serves.row _
  | loadData => exact fun _ => ruleLeaves_loadData.serves.row _
  | loadCommit => exact fun _ => ruleServes_loadCommit.row _
  | loadCancel => exact fun _ => ruleLeaves_loadCancel.serves.row _
  | streamOpen => exact fun _ => ruleLeaves_streamOpen.serves.row _
  | streamData => exact fun _ => ruleServes_streamData.row _
  | streamCancel => exact fun _ => ruleLeaves_streamCancel.serves.row _
  | readTable => exact fun _ => ruleServes_readTable.row _
  | writeView => exact fun _ => ruleServes_writeView.row _
  | readView => exact fun _ => ruleLeaves_readView.serves.row _
  | viewActivate => exact fun _ => ruleServes_viewActivate.row _
  | viewHold => exact fun _ => ruleServes_viewHold.row _
  | viewDisable => exact fun _ => ruleServes_viewDisable.row _
  | engineAbort => exact fun _ => ruleServes_engineAbort.row _
  | setTimeTag =>
    exact fun _ => ruleLeaves_setTimeTag.serves.broadcastRow
      (fun payload s hs => hs.congr (viewParts_setTimeTag payload s)) _
  | readRecords => exact fun _ => ruleLeaves_readRecords.serves.row _
  | recallFrame => exact fun _ => ruleLeaves_recallFrame.serves.row _
  | recallLatest => exact fun _ => ruleLeaves_recallLatest.serves.row _
  | uplinkPause => exact fun _ => ruleLeaves_uplinkPause.serves.row _
  | uplinkResume => exact fun _ => ruleLeaves_uplinkResume.serves.row _
  | uplinkFlush => exact fun _ => ruleLeaves_uplinkFlush.serves.row _
  | jobStart => exact servesViews_jobStart
  | outputPixel => exact leavesViews_outputPixel.serves
  | jobEnd => exact servesViews_jobEnd
  | timeTagTick => exact fun s _ hs => ⟨_, rfl, hs.congr rfl⟩
  | relayByte b => exact (leavesViews_relayByte b).serves
  | relayIdleTimeout => exact leavesViews_relayIdleTimeout.serves
  | uplinkPortReady => exact leavesViews_uplinkPortReady.serves

/-- Settles O60, row by row: the loads meet sound tables, every job that starts is of a view in use, which has a slot to
write, and each command and each job's end leaves its view fit and in a state that serves its jobs. -/
theorem viewsAndJobsKept : Obligations.ViewsAndJobsKept := by
  intro s htables hviews hjobs
  have hs := (soundBut_nil_iff s).2 ⟨hviews, hjobs⟩
  simp only [← soundBut_nil_iff]
  cases hq : s.pending with
  | nil => exact ⟨s, by rw [step, hq], hs⟩
  | cons i rest =>
    rw [step_cons hq]
    exact exec_serves i _ (htables.congr rfl) (hs.congr rfl)

end Sys2Proof.Machine
end

section
/-! PROOFS. The range checks of Write View over its payload's bytes (spec/04 R61, spec/11 R171). -/

namespace Sys2Proof.Machine

section
variable {p : List Byte}

/-- A number of `k` bytes is below 256 to the `k`. -/
theorem num_lt (p : List Byte) (off k : Nat) : num p off k < 256 ^ k :=
  (leNat_lt _).trans_le (Nat.pow_le_pow_right (by decide) (List.length_take_le k _))

/-- A number past the last of a range. -/
theorem below?_succ_eq_none {n v : Nat} : below? (n + 1) v = none ↔ n < v := below?_eq_none

/-- A code past the two positions of a switch. -/
theorem switch?_eq_none_iff {n : Nat} : switch? n = none ↔ 1 < n := switch?_eq_none

/-- Codes and numbers that name no value among the parameters a job latches, over the numbers `q` of the payload
(R171). -/
def jobCodesRefused (q : Nat → Nat → Nat) : Prop :=
  (∃ e < 4, 7 < q (4 + 2 * e) 1 ∨ 63 < q (5 + 2 * e) 1) ∨ 63 < q 12 1 ∨ 63 < q 13 1
  ∨ 1 < q 18 1 ∨ 1 < q 19 1 ∨ 1 < q 24 1 ∨ 1 < q 25 1 ∨ 3 < q 26 1

/-- Numbers out of range among the parameters a job latches, over the numbers `q` of the payload (R61). -/
def jobRangesRefused (q : Nat → Nat → Nat) : Prop :=
  (∃ e < 4, ∃ f < e, q (5 + 2 * e) 1 ≠ 0 ∧ q (5 + 2 * f) 1 ≠ 0 ∧ q (4 + 2 * e) 1 ≤ q (4 + 2 * f) 1)
  ∨ (q 14 2 < 64 ∨ 2048 < q 14 2 ∨ q 14 2 % 16 ≠ 0) ∨ (q 16 2 < 16 ∨ 2048 < q 16 2) ∨ 1023 < q 22 2
  ∨ (q 26 1 = 3 ∧ q 27 1 ∉ [2, 4, 8, 16])
  ∨ (q 26 1 ≠ 0 ∧ (q 28 1 < 12 ∨ 63 < q 28 1 ∨ 64 < q 28 1
    + if q 26 1 = 1 then 1 else if q 26 1 = 2 then 2 else if q 26 1 = 3 then q 27 1 else 0))

/-- The gain-set bytes out of range. -/
theorem gainSet_refused_iff :
    gainSetAt p 4 = none ↔ ∃ e < 4, 7 < num p (4 + 2 * e) 1 ∨ 63 < num p (5 + 2 * e) 1 := by
  have hnext : ∀ e, 4 + 2 * e + 1 = 5 + 2 * e := fun e => by omega
  simp only [gainSetAt_eq_none, gainEntryAt_eq_none, hnext]
  exact ⟨fun ⟨i, h⟩ => ⟨i.val, i.isLt, h⟩, fun ⟨e, he, h⟩ => ⟨⟨e, he⟩, h⟩⟩

/-- Used entries of the gain-set bytes out of order. -/
theorem gainSet_order_iff {g : Vector GainEntry 4} (h : gainSetAt p 4 = some g) :
    ¬ ascendingLevels (usedEntries g) = true ↔ ∃ e < 4, ∃ f < e,
      num p (5 + 2 * e) 1 ≠ 0 ∧ num p (5 + 2 * f) 1 ≠ 0 ∧ num p (4 + 2 * e) 1 ≤ num p (4 + 2 * f) 1 := by
  have hentry : ∀ i : Fin 4, (pick g i).level.val = num p (4 + 2 * i.val) 1
      ∧ (pick g i).selector.val = num p (5 + 2 * i.val) 1 := fun i => by
    obtain ⟨hl, hd⟩ := gainEntryAt_eq_some.1 (gainSetAt_eq_some.1 h i)
    exact ⟨hl, hd.trans (by rw [Nat.add_right_comm])⟩
  simp only [ascending_used_iff, not_forall, exists_prop, Fin.lt_def, not_lt, ne_eq, Fin.ext_iff,
    fun i => (hentry i).1, fun i => (hentry i).2]
  constructor
  · rintro ⟨i, j, hji, hi, hj, hle⟩
    exact ⟨i.val, i.isLt, j.val, hji, hi, hj, hle⟩
  · rintro ⟨e, he, f, hf, hi, hj, hle⟩
    exact ⟨⟨e, he⟩, ⟨f, hf.trans he⟩, hf, hi, hj, hle⟩

/-- The scheme length of given parameters, by the scheme's code. -/
theorem schemeLength_eq (j : JobParams) : j.schemeLength = if j.scheme.code.toNat = 1 then 1
    else if j.scheme.code.toNat = 2 then 2 else if j.scheme.code.toNat = 3 then j.ringLength else 0 := by
  unfold JobParams.schemeLength
  cases j.scheme <;> rfl

/-- The bytes carry no parameters for a job exactly when a code or a number bounded by its type is refused. -/
theorem jobCodesRefused_iff : jobParamsAt p = none ↔ jobCodesRefused (num p) := by
  rw [jobParamsAt_eq_none, gainSet_refused_iff, below?_eq_none, below?_eq_none, switch?_eq_none, switch?_eq_none,
    format?_eq_none, switch?_eq_none, scheme?_eq_none]
  rfl

/-- Parameters the bytes carry are out of range exactly when a number is refused. -/
theorem jobRangesRefused_iff {j : JobParams} (hj : JobPayload p j) :
    jobParamsInRange j = false ↔ jobRangesRefused (num p) := by
  have hscheme := scheme?_eq_some.1 hj.scheme
  have hring : j.scheme = .ring ↔ num p 26 1 = 3 := by rw [hscheme]; cases j.scheme <;> decide
  have hnone : j.scheme ≠ .unbuffered ↔ num p 26 1 ≠ 0 := by rw [hscheme]; cases j.scheme <;> decide
  rw [← Bool.not_eq_true, jobParamsInRange_iff, not_and_or, gainSet_order_iff hj.gains, hring, hnone,
    schemeLength_eq, ← hscheme, ← hj.width, ← hj.height, ← hj.fill, ← hj.ring, ← hj.base]
  simp only [not_and_or, Classical.not_imp, not_le]
  rfl

/-- The parameters a job latches are refused by R171's codes or R61's ranges. -/
theorem jobRefused_iff : (∀ j, JobPayload p j → jobParamsInRange j = false)
    ↔ jobCodesRefused (num p) ∨ jobRangesRefused (num p) := by
  rw [← jobCodesRefused_iff]
  constructor
  · intro h
    rw [or_iff_not_imp_left, ← ne_eq, Option.ne_none_iff_exists']
    rintro ⟨j, hj⟩
    have hpay := jobParamsAt_eq_some.1 hj
    exact (jobRangesRefused_iff hpay).1 (h j hpay)
  · rintro (h | h) j hj
    · cases h.symm.trans (jobParamsAt_eq_some.2 hj)
    · exact (jobRangesRefused_iff hj).2 h

/-- The forwarding class bytes out of range; two bytes hold every number SPACING may have. -/
theorem forwarding_refused_iff : forwardClass? (num p 30 1) (num p 31 2) = none ↔ 4 < num p 30 1
    ∨ (num p 30 1 = 2 ∧ (num p 31 2 < 2 ∨ 255 < num p 31 2)) ∨ (num p 30 1 = 3 ∧ num p 31 2 < 1)
    ∨ (num p 30 1 = 4 ∧ (num p 31 2 < 1 ∨ 255 < num p 31 2)) := by
  have hbound : ¬ 65535 < num p 31 2 := Nat.not_lt.2 (Nat.le_of_lt_succ (num_lt p 31 2))
  rw [forwardClass?_eq_none]
  simp only [hbound, or_false]


end

/-! ### Write View's answers (R61 to R64) -/

section
variable {payload : List Byte} {s : State}

/-- Write View out of range (R61). -/
theorem writeViewRule_badParam (h : below? 16 (num payload 0 1) = none ∨ viewParamsAt payload = none) :
    writeViewRule payload s = refuse s .badParam := by
  unfold writeViewRule
  split
  · next hv hnew => simp [hv, hnew] at h
  · rfl

/-- Write View in range: the state check, the slot check, and the parameters stored (R62, R63, R64). -/
theorem writeViewRule_inRange {v : Fin 16} {new : ViewParams} (hv : num payload 0 1 = v.val)
    (hnew : viewParamsAt payload = some new) : writeViewRule payload s =
      if ((pick s.views v).state ≠ .disabled ∧ restrictedChange (pick s.views v).params new = true)
          ∨ ((pick s.views v).state = .active ∧ new.job.meshSelector = 0) then refuse s .viewState
      else if slotConflict s v new then refuse s .slotConflict
      else accept (s.updView v fun x => x.rewrite new) := by
  rw [writeViewRule, below?_eq_some.2 hv.symm, hnew]

/-- Write View in range is not answered BAD_PARAM. -/
theorem writeViewRule_ne_badParam {p : Packet} {t : State} {data : List Byte} {v : Fin 16} {new : ViewParams}
    (hv : num payload 0 1 = v.val) (hnew : viewParamsAt payload = some new) (ht : t.responses = s.responses) :
    answerTo p (writeViewRule payload s) ≠ .next (t.respond p .badParam data) := by
  have hne : ∀ (u : State) (x : Status) (d : List Byte), u.responses = s.responses → x ≠ .badParam →
      answerTo p (.reply u x d) ≠ .next (t.respond p .badParam data) := fun u x d hu hx h => by
    have hresponses := congrArg State.responses (Host.Outcome.next.inj h)
    simp only [State.respond, hu, ht] at hresponses
    simp [hx] at hresponses
  rw [writeViewRule_inRange hv hnew]
  split
  · exact hne _ _ _ rfl (by decide)
  · split
    · exact hne _ _ _ rfl (by decide)
    · exact hne _ _ _ rfl (by decide)

end

/-- A started Write View of the right length answers by its rule. -/
theorem exec_writeView {s : State} {p : Packet} {rest : List Packet} (hst : Started .writeView p rest s) (hr : Ready s)
    (hl : p.payload.length = 34) :
    exec .writeView s = answerTo p (writeViewRule p.payload { s with commandBuffer := rest }) :=
  runCommand_ready hst hr (by decide) (by simp [Command.lengthFits, Command.payloadLength, hl]) _

/-- Settles O28: the bullets of R61 are the ways the payload's bytes carry no view or no parameter set in range. -/
theorem writeViewRanges : Obligations.WriteViewRanges := by
  intro s p rest hst hr hl q level selector scheme length bad
  have hbad : bad ↔ below? 16 (num p.payload 0 1) = none ∨ viewParamsAt p.payload = none := by
    simp only [viewParamsAt_eq_none, jobRefused_iff, forwarding_refused_iff, below?_succ_eq_none,
      switch?_eq_none_iff, jobCodesRefused, jobRangesRefused, bad, q, level, selector, scheme, length]
    exact iff_of_eq (by ac_rfl)
  rw [exec_writeView hst hr hl, hbad]
  refine ⟨fun h => ?_, fun h => ?_⟩
  · rw [writeViewRule_badParam h]
    rfl
  · rw [not_or, ← ne_eq, ← ne_eq, Option.ne_none_iff_exists', Option.ne_none_iff_exists'] at h
    obtain ⟨⟨v, hv⟩, new, hnew⟩ := h
    exact writeViewRule_ne_badParam (t := { s with commandBuffer := rest }) (below?_eq_some.1 hv).symm hnew rfl

/-- Some restricted field differs (R63). -/
theorem restrictedChange_eq_true {old new : ViewParams} : restrictedChange old new = true ↔
    old.camera ≠ new.camera ∨ old.job.width ≠ new.job.width ∨ old.job.height ≠ new.job.height
    ∨ old.job.format ≠ new.job.format ∨ old.job.scheme ≠ new.job.scheme ∨ old.job.ringLength ≠ new.job.ringLength
    ∨ old.job.slotBase ≠ new.job.slotBase := decide_eq_true_iff

/-- Settles O29: the state check, the slot check and the store of R62 to R64 in their order. -/
theorem writeViewStores : Obligations.WriteViewStores := by
  intro s p rest v new hst hr hnew hl hv old restricted wrongState conflict
  have hwrong : ((pick s.views v).state ≠ .disabled ∧ restrictedChange (pick s.views v).params new = true)
      ∨ ((pick s.views v).state = .active ∧ new.job.meshSelector = 0) ↔ wrongState := by
    rw [restrictedChange_eq_true]
  have hconflict : slotConflict { s with commandBuffer := rest } v new = true ↔ conflict := by
    simp only [slotConflict_iff, overlaps_iff]
    rfl
  rw [exec_writeView hst hr hl, writeViewRule_inRange (s := { s with commandBuffer := rest }) hv hnew]
  refine ⟨fun h => ?_, fun h k => ?_, fun h k => ?_⟩
  · rw [if_pos (hwrong.2 h)]
    rfl
  · rw [if_neg (hwrong.not.2 h), if_pos (hconflict.2 k)]
    rfl
  · rw [if_neg (hwrong.not.2 h), if_neg (hconflict.not.2 k)]
    have hviews : (upd s.views v fun w => w.rewrite new) = upd s.views v fun w =>
        if old.forwardClass = new.forwardClass then { w with params := new }
        else { w with params := new, decimation := 0, lastOdometer := none, burst := 0 } := upd_congr rfl
    exact congrArg (fun vs => Host.Outcome.next { s.answered p rest .ok [] with views := vs }) hviews

/-! ### The bytes that carry a parameter set (R61, R171) -/

/-- The bytes of a gain set, entry by entry. -/
theorem gainSet_bytes (g : Vector GainEntry 4) :
    g.toList.flatMap (fun e => leBytes 1 e.level.val ++ leBytes 1 e.selector.val)
      = leBytes 1 (pick g 0).level.val ++ leBytes 1 (pick g 0).selector.val
        ++ (leBytes 1 (pick g 1).level.val ++ leBytes 1 (pick g 1).selector.val)
        ++ (leBytes 1 (pick g 2).level.val ++ leBytes 1 (pick g 2).selector.val)
        ++ (leBytes 1 (pick g 3).level.val ++ leBytes 1 (pick g 3).selector.val) := by
  conv_lhs => rw [gainSet_eq g]
  rfl

/-- The numbers of a parameter set fit their bytes (R171). -/
structure FitsBytes (x : ViewParams) : Prop where
  width : x.job.width < 65536
  height : x.job.height < 65536
  fill : x.job.fill < 65536
  ring : x.job.ringLength < 256
  base : x.job.slotBase < 256
  number : x.forwardClass.number < 65536

/-- A bounded number, read back from bytes that hold its range. -/
theorem leNat_fin {n k : Nat} (i : Fin n) (h : n ≤ 256 ^ k) : leNat (leBytes k i.val) = i.val :=
  leNat_leBytes (i.isLt.trans_le h)

/-- The parameter set, written and read back. -/
theorem viewPayload_layout (v : Fin 16) {x : ViewParams} (h : FitsBytes x)
    (hcls : x.forwardClass.takes x.forwardClass.number) : ViewPayload (leBytes 1 v.val ++ viewParamBytes x) x := by
  have hlevel (i : Fin 4) := leNat_fin (k := 1) (pick x.job.gainSet i).level (by decide)
  have hselector (i : Fin 4) := leNat_fin (k := 1) (pick x.job.gainSet i).selector (by decide)
  have hlevels : leNat (leBytes 1 x.levelMask.toNat) = _ := leNat_leBytes x.levelMask.isLt
  have hkinds : leNat (leBytes 1 x.kindMask.toNat) = _ := leNat_leBytes (x.kindMask.isLt.trans (by decide))
  have hexposure : leNat (leBytes 2 x.job.referenceExposure.toNat) = _ :=
    leNat_leBytes x.job.referenceExposure.isLt
  have hnumber : leNat (leBytes 2 x.forwardClass.number) = _ := leNat_leBytes h.number
  rw [viewParamBytes, gainSet_bytes]
  simp only [leBytes, List.cons_append, List.nil_append]
  refine
    { camera := below?_eq_some.2 (leNat_fin (k := 1) _ (by decide)).symm
      levels := (congrArg (BitVec.ofNat 8) hlevels).trans (ofNat_toNat_self _)
      kinds := (congrArg (BitVec.ofNat 3) hkinds).trans (ofNat_toNat_self _)
      job :=
        { gains := gainSetAt_eq_some.2 fun i => gainEntryAt_eq_some.2 ?_
          mesh := below?_eq_some.2 (leNat_fin (k := 1) _ (by decide)).symm
          tone := below?_eq_some.2 (leNat_fin (k := 1) _ (by decide)).symm
          width := leNat_leBytes (k := 2) h.width
          height := leNat_leBytes (k := 2) h.height
          axis := switch?_flagByte _
          black := switch?_flagByte _
          exposure := (congrArg (BitVec.ofNat 16) hexposure).trans (ofNat_toNat_self _)
          fill := leNat_leBytes (k := 2) h.fill
          format := format?_eq_some.2 rfl
          histogram := switch?_flagByte _
          scheme := scheme?_eq_some.2 rfl
          ring := leNat_leBytes (k := 1) h.ring
          base := leNat_leBytes (k := 1) h.base }
      advance := switch?_flagByte _
      forwarding := forwardClass?_eq_some.2 ⟨rfl, (congrArg x.forwardClass.takes hnumber).mpr hcls⟩
      priority := below?_eq_some.2 (leNat_fin (k := 1) _ (by decide)).symm }
  fin_cases i
  · exact ⟨(hlevel 0).symm, (hselector 0).symm⟩
  · exact ⟨(hlevel 1).symm, (hselector 1).symm⟩
  · exact ⟨(hlevel 2).symm, (hselector 2).symm⟩
  · exact ⟨(hlevel 3).symm, (hselector 3).symm⟩

/-- The kind mask's byte has no bit past the mask's three. -/
theorem kinds_lt (v : Fin 16) (x : ViewParams) : num (leBytes 1 v.val ++ viewParamBytes x) 3 1 < 8 := by
  have hkinds : leNat (leBytes 1 x.kindMask.toNat) = _ := leNat_leBytes (x.kindMask.isLt.trans (by decide))
  rw [viewParamBytes, gainSet_bytes]
  simp only [leBytes, List.cons_append, List.nil_append]
  exact hkinds.trans_lt x.kindMask.isLt

/-- A forwarding class takes its own number when that is in its range, and two bytes hold it (R61). -/
theorem ForwardClass.takes_lt {x : ForwardClass} (h : x.takes x.number) : x.number < 65536 := by
  cases x with
  | off => exact Nat.zero_lt_succ _
  | every => exact Nat.zero_lt_succ _
  | decimate n => exact Nat.lt_of_le_of_lt h.2.2 (by decide)
  | spacing d => exact Nat.lt_succ_of_le h.2.2
  | marker k => exact Nat.lt_of_le_of_lt h.2.2 (by decide)

/-- The scheme length depends on the ring length with RING only. -/
theorem schemeLength_congr {j k : JobParams} (hs : j.scheme = k.scheme)
    (hr : k.scheme = .ring → j.ringLength = k.ringLength) : j.schemeLength = k.schemeLength := by
  unfold JobParams.schemeLength
  rw [hs]
  cases e : k.scheme with
  | unbuffered => rfl
  | single => rfl
  | double => rfl
  | ring => exact hr e

/-- A view with a scheme has at least one slot. -/
theorem ViewFits.schemeLength_pos {w : View} (h : ViewFits w) (hs : w.params.job.scheme ≠ .unbuffered) :
    0 < w.params.job.schemeLength := by
  unfold JobParams.schemeLength
  cases e : w.params.job.scheme with
  | unbuffered => exact absurd e hs
  | single => exact Nat.one_pos
  | double => exact Nat.two_pos
  | ring =>
    have hlength : ∀ n ∈ [2, 4, 8, 16], 0 < n := by decide
    exact hlength _ (h.ring_length e)

/-- Settles O30: the bytes hold the parameter set given, which is in range, and it is stored with the numbers its
scheme does not use cleared. -/
theorem writeViewEncoding : Obligations.WriteViewEncoding := by
  intro v w hfits hwidth hwidth' hmod hheight hheight' horder hcls ring base given
  have htakes : w.params.forwardClass.takes w.params.forwardClass.number := by
    cases e : w.params.forwardClass with
    | off => trivial
    | every => trivial
    | decimate n => exact ⟨rfl, by simpa only [e] using hcls⟩
    | spacing d => exact ⟨rfl, by simpa only [e] using hcls⟩
    | marker k => exact ⟨rfl, by simpa only [e] using hcls⟩
  have hring (e : w.params.job.scheme = .ring) : given.job.ringLength = w.params.job.ringLength := if_pos e
  have hbase (e : w.params.job.scheme ≠ .unbuffered) : given.job.slotBase = w.params.job.slotBase := if_neg e
  have hslots (e : w.params.job.scheme ≠ .unbuffered) : 12 ≤ given.job.slotBase ∧ given.job.slotBase ≤ 63
      ∧ given.job.slotBase + given.job.schemeLength ≤ 64 := by
    have hlength : given.job.schemeLength = w.params.job.schemeLength := schemeLength_congr rfl hring
    have hpos := hfits.schemeLength_pos e
    obtain ⟨hlow, hhigh⟩ := hfits.range e
    rw [hbase e, hlength]
    omega
  have hrange : jobParamsInRange given.job = true :=
    (jobParamsInRange_iff _).2 ⟨horder, ⟨hwidth, hwidth', hmod⟩, ⟨hheight, hheight'⟩, hfits.fill,
      fun e => (hring e).symm ▸ hfits.ring_length e, hslots⟩
  have hbytes : FitsBytes given :=
    { width := Nat.lt_of_le_of_lt hwidth' (by decide)
      height := Nat.lt_of_le_of_lt hheight' (by decide)
      fill := Nat.lt_of_le_of_lt hfits.fill (by decide)
      ring := by
        by_cases e : w.params.job.scheme = .ring
        · have hlength : ∀ n ∈ [2, 4, 8, 16], n < 256 := by decide
          exact (hring e).symm ▸ hlength _ (hfits.ring_length e)
        · exact (if_neg e).trans_lt ring.isLt
      base := by
        by_cases e : w.params.job.scheme = .unbuffered
        · exact (if_pos e).trans_lt base.isLt
        · exact (hslots e).2.1.trans_lt (by decide)
      number := ForwardClass.takes_lt htakes }
  have hlayout := viewPayload_layout v hbytes htakes
  refine viewParamsAt_eq_some.2 ⟨given, hlayout, kinds_lt v given, hrange, ?_⟩
  simp only [ViewParams.stored, storedJobParams, given]
  cases w.params.job.scheme <;> rfl

end Sys2Proof.Machine
end

section
/-! PROOFS. Read View and the view state commands (spec/04 R65, R68 to R70, R73). -/

namespace Sys2Proof.Machine

/-! ### A payload of one view number -/

section
variable {n : Nat} {v : Fin 16}

/-- The view a one-byte payload names. -/
theorem below?_view_byte (hv : v.val = n) : below? 16 (num (leBytes 1 n) 0 1) = some v := by
  have hnum : num (leBytes 1 n ++ []) 0 1 = n := num_front_byte (hv ▸ v.isLt.trans (by decide)) []
  exact below?_eq_some.2 (hv.trans hnum.symm)

/-- A one-byte payload past the views. -/
theorem below?_view_byte_eq_none (hn : n < 256) (h : 15 < n) : below? 16 (num (leBytes 1 n) 0 1) = none := by
  have hnum : num (leBytes 1 n ++ []) 0 1 = n := num_front_byte hn []
  exact below?_eq_none.2 (hnum.symm ▸ h)

end

/-! ### Read View (R65) -/

/-- A started Read View answers by its rule in every load state. -/
theorem exec_readView {s : State} {p : Packet} {rest : List Packet} {n : Nat} (hst : Started .readView p rest s)
    (hs : s.starting = false) (hp : p.payload = leBytes 1 n) :
    exec .readView s = answerTo p (readViewRule (leBytes 1 n) { s with commandBuffer := rest }) := by
  rw [← hp]
  exact runCommand_proceeds hst (proceeds_always hs rfl) (hp ▸ rfl) _

/-- Whether a view's job is in flight, as a proposition decided. -/
theorem inFlightOf_eq_decide (s : State) (v : Fin 16) : s.inFlightOf v = decide (∃ f ∈ s.flight, f.job.view = v) :=
  Bool.eq_iff_iff.2 ((inFlightOf_iff s v).trans decide_eq_true_iff.symm)

/-- Settles O31: the rule's answer, with the in-flight flag put as R65 says it. -/
theorem readViewReturns : Obligations.ReadViewReturns := by
  intro s p rest n hst hs hn hp
  constructor
  · intro h
    rw [exec_readView hst hs hp, readViewRule, below?_view_byte_eq_none hn h]
    rfl
  · intro v hv w
    rw [exec_readView hst hs hp, readViewRule, below?_view_byte hv, ← inFlightOf_eq_decide]
    rfl

/-! ### The view state commands (R68 to R70) -/

section
variable {s : State} {p : Packet} {rest : List Packet} {n : Nat}

/-- A started command of one byte answers by its rule. -/
theorem runCommand_byte {c : Command} (hst : Started c p rest s) (hr : Ready s) (ho : c ≠ .loadOpen ∧ c ≠ .streamOpen)
    (hl : c.lengthFits (leBytes 1 n) = true) (hp : p.payload = leBytes 1 n) (rule : List Byte → State → Answer) :
    runCommand c rule s = answerTo p (rule (leBytes 1 n) { s with commandBuffer := rest }) := by
  rw [← hp] at hl ⊢
  exact runCommand_ready hst hr ho hl rule

/-- A started View Activate answers by its rule. -/
theorem exec_viewActivate (hst : Started .viewActivate p rest s) (hr : Ready s) (hp : p.payload = leBytes 1 n) :
    exec .viewActivate s = answerTo p (viewActivateRule (leBytes 1 n) { s with commandBuffer := rest }) :=
  runCommand_byte hst hr (by decide) rfl hp _

/-- A started View Hold answers by its rule. -/
theorem exec_viewHold (hst : Started .viewHold p rest s) (hr : Ready s) (hp : p.payload = leBytes 1 n) :
    exec .viewHold s = answerTo p (viewHoldRule (leBytes 1 n) { s with commandBuffer := rest }) :=
  runCommand_byte hst hr (by decide) rfl hp _

/-- A started View Disable answers by its rule. -/
theorem exec_viewDisable (hst : Started .viewDisable p rest s) (hr : Ready s) (hp : p.payload = leBytes 1 n) :
    exec .viewDisable s = answerTo p (viewDisableRule (leBytes 1 n) { s with commandBuffer := rest }) :=
  runCommand_byte hst hr (by decide) rfl hp _

end

/-- A view put in another state: OK with that state. -/
theorem answerTo_updView_state (s : State) (p : Packet) (rest : List Packet) (v : Fin 16) (x : ViewState) :
    answerTo p (viewStateReply ({ s with commandBuffer := rest }.updView v fun y => { y with state := x }) v)
      = .next { s.answered p rest .ok [x.code] with views := upd s.views v fun y => { y with state := x } } := by
  rw [viewStateReply, State.updView_views, pick_upd_same]
  rfl

/-- A view left in its state: OK with that state. -/
theorem answerTo_viewStateReply (s : State) (p : Packet) (rest : List Packet) (v : Fin 16) {x : ViewState}
    (h : (pick s.views v).state = x) :
    answerTo p (viewStateReply { s with commandBuffer := rest } v) = .next (s.answered p rest .ok [x.code]) := by
  rw [← h]
  rfl

/-- A view has an outstanding job. -/
theorem outstanding_ne_zero_iff (s : State) (v : Fin 16) :
    s.outstanding v ≠ 0 ↔ (∃ j ∈ s.jobs, j.view = v) ∨ ∃ f ∈ s.flight, f.job.view = v := by
  rw [ne_eq, outstanding_eq_zero_iff, not_and_or]
  simp only [not_forall, not_not, exists_prop]

/-- Settles O32: each command's answer, state by state. -/
theorem activateAndHold : Obligations.ActivateAndHold := by
  intro s p rest n hr hn hp
  refine ⟨fun h => ⟨fun hst => ?_, fun hst => ?_⟩, ?_⟩
  · rw [exec_viewActivate hst hr hp, viewActivateRule, below?_view_byte_eq_none hn h]
    rfl
  · rw [exec_viewHold hst hr hp, viewHoldRule, below?_view_byte_eq_none hn h]
    rfl
  intro v hv w goes refused
  refine ⟨fun hst => ?_, fun hst => ?_⟩
  · rw [exec_viewActivate hst hr hp, viewActivateRule, below?_view_byte hv]
    cases e : (pick s.views v).state with
    | disabled =>
      simp only [e]
      split
      · rfl
      · exact answerTo_updView_state ..
    | active =>
      simp only [e]
      exact answerTo_viewStateReply s p rest v e
    | draining => simp only [e]; rfl
    | held =>
      simp only [e]
      split
      · rfl
      · exact answerTo_updView_state ..
    | closing => simp only [e]; rfl
  · rw [exec_viewHold hst hr hp, viewHoldRule, below?_view_byte hv]
    cases e : (pick s.views v).state with
    | active =>
      have hstands : State.outstanding { s with commandBuffer := rest } v = s.outstanding v := rfl
      simp only [e, answerTo_updView_state, hstands, ← outstanding_ne_zero_iff]
      by_cases hnone : s.outstanding v = 0
      · rw [if_pos hnone, if_neg (not_not.2 hnone)]
      · rw [if_neg hnone, if_pos hnone]
    | draining =>
      simp only [e]
      exact answerTo_viewStateReply s p rest v e
    | held =>
      simp only [e]
      exact answerTo_viewStateReply s p rest v e
    | disabled => simp only [e]; rfl
    | closing => simp only [e]; rfl

/-! ### View Disable (R70, R73) -/

section
variable (s : State) (v : Fin 16)

/-- A view after its queued jobs are removed: each counts as cancelled. -/
theorem views_removeJobs_same : pick (s.removeJobs fun j => j.view == v).views v = { pick s.views v with
      counters := { (pick s.views v).counters with
        cancelled := Nat.repeat satInc (s.jobs.filter fun j => j.view == v).length
          (pick s.views v).counters.cancelled } } := by
  have hall : (s.jobs.filter fun j => j.view == v).countP (fun j => j.view == v)
      = (s.jobs.filter fun j => j.view == v).length :=
    List.countP_eq_length.2 fun _ hj => (List.mem_filter.1 hj).2
  rw [removeJobs_eq, pick_tabulate, hall]

/-- Another view stands when a view's queued jobs are removed. -/
theorem views_removeJobs_other {u : Fin 16} (h : u ≠ v) :
    pick (s.removeJobs fun j => j.view == v).views u = pick s.views u := by
  have hnone : (s.jobs.filter fun j => j.view == v).countP (fun j => j.view == u) = 0 :=
    List.countP_eq_zero.2 fun _ hj hu => h ((beq_iff_eq.1 hu).symm.trans (beq_iff_eq.1 (List.mem_filter.1 hj).2))
  rw [removeJobs_eq, pick_tabulate, hnone]
  rfl

/-- A view on View Disable: CLOSING while its job is in flight, otherwise DISABLED (R70). -/
def View.disabledBy (w : View) (closing : Bool) : View :=
  if closing then { w with state := .closing } else w.disable

/-- The state of a view on View Disable. -/
theorem View.disabledBy_state (w : View) (closing : Bool) :
    (w.disabledBy closing).state = if closing then .closing else .disabled := by
  cases closing <;> rfl

/-- View Disable, field by field. -/
theorem disableView_eq : disableView v s = { s with
    jobs := s.jobs.filter fun j => j.view != v
    sourceSlots := (s.removeJobs fun j => j.view == v).sourceSlots
    views := upd (s.removeJobs fun j => j.view == v).views v fun w => w.disabledBy (s.inFlightOf v) } := by
  have hflight : (s.removeJobs fun j => j.view == v).inFlightOf v = s.inFlightOf v := by
    rw [removeJobs_eq]
    rfl
  rw [disableView, hflight]
  cases e : s.inFlightOf v with
  | false => rw [removeJobs_eq]; rfl
  | true => rw [removeJobs_eq]; rfl

/-- The answer of View Disable: OK with the state after it. -/
theorem answerTo_disableView (p : Packet) (rest : List Packet) :
    answerTo p (viewStateReply (disableView v { s with commandBuffer := rest }) v) = .next
      { s.answered p rest .ok [(if s.inFlightOf v then ViewState.closing else .disabled).code] with
        jobs := s.jobs.filter fun j => j.view != v
        sourceSlots := (s.removeJobs fun j => j.view == v).sourceSlots
        views := upd (s.removeJobs fun j => j.view == v).views v fun w => w.disabledBy (s.inFlightOf v) } := by
  rw [viewStateReply, disableView_eq, pick_upd_same, View.disabledBy_state, removeJobs_eq, removeJobs_eq]
  rfl

end

/-- Settles O33: the removal of the view's jobs, then the view closed or disabled. -/
theorem viewDisabled : Obligations.ViewDisabled := by
  intro s p rest n hst hr hn hp
  rw [exec_viewDisable hst hr hp]
  refine ⟨fun h => ?_, ?_⟩
  · rw [viewDisableRule, below?_view_byte_eq_none hn h]
    rfl
  intro v hv gone closing
  have hclosing : closing ↔ s.inFlightOf v = true := (inFlightOf_iff s v).symm
  rw [viewDisableRule, below?_view_byte hv]
  refine ⟨_, answerTo_disableView s v p rest, rfl, fun i => ?_, fun h => ?_, fun h => ?_, fun u hu => ?_,
    if s.inFlightOf v then .closing else .disabled, ?_, ?_, rfl⟩
  · rw [removeJobs_eq, pick_tabulate]
  · rw [pick_upd_same, hclosing.1 h, views_removeJobs_same]
    rfl
  · rw [pick_upd_same, Bool.eq_false_iff.2 (hclosing.not.1 h), views_removeJobs_same]
    rfl
  · rw [pick_upd_other _ _ hu, views_removeJobs_other s v hu]
  · cases s.inFlightOf v with
    | false => exact .inr rfl
    | true => exact .inl rfl
  · rw [pick_upd_same, View.disabledBy_state]

end Sys2Proof.Machine
end

section
/-! PROOFS. What the invariants of the memories and queues read, and the changes that keep them (spec/00 6, spec/10
R150, R151). -/

namespace Sys2Proof.Machine

/-! ### The invariants and what they read -/

/-- The memories in their one form and every collection within its places. -/
structure StoresFit (s : State) : Prop where
  memory : Memory.wf s = true
  queues : QueuesBounded s

/-- The Forward Queue holds one entry a record, and none yet for the record of the job in flight or for the next
record (R150). -/
structure ForwardsFit (s : State) : Prop where
  distinct : ForwardsDistinct s
  next : ∀ e ∈ s.forwardQueue, e.record ≠ s.nextRecord

/-- After a change from `s` the Forward Queue holds one entry a record, and none for the next record but one that stood
and that the record number, advancing, has reached (R150; log 30). -/
structure ForwardsServed (s t : State) : Prop where
  distinct : ForwardsDistinct t
  wrapped : ∀ e ∈ t.forwardQueue, e.record = t.nextRecord →
    t.nextRecord = s.nextRecord + 1 ∧ e ∈ s.forwardQueue

/-- A change keeps the memories, the queues' bounds and order, and one forward entry a record. -/
structure QueuesCarried (s t : State) : Prop where
  fit : StoresFit s → StoresFit t
  forwards : RecordsSound s → ForwardsFit s → ForwardsServed s t

/-- A change keeps the memories and the bounds, places no response, no forward entry and no job in flight, and makes no
record number. -/
structure QueuesHeld (s t : State) : Prop where
  fit : StoresFit s → StoresFit t
  responses : t.responses.length ≤ s.responses.length
  forwards : t.forwardQueue.Sublist s.forwardQueue
  flight : ∀ f ∈ t.flight, ∃ g ∈ s.flight, g.record = f.record
  next : t.nextRecord = s.nextRecord

/-- What these invariants read of a state. -/
structure QueueParts where
  store : List (Nat × Word)
  rows : Fin 12 → List (Nat × List Pixel)
  cells : Fin 52 → List (Nat × Cell)
  commands : List Packet
  responses : List Response
  notices : List Notice
  jobs : Nat
  records : Nat
  forwards : List ForwardEntry
  relay : List Byte
  flight : Option RecordNumber
  next : RecordNumber

/-- The parts of a state that the invariants of the memories and queues read. -/
def State.queueParts (s : State) : QueueParts where
  store := s.tableStore
  rows i := (pick s.sourceSlots i).rows
  cells x := (pick s.outputSlots x).cells
  commands := s.commandBuffer
  responses := s.responses
  notices := s.notices
  jobs := s.jobs.length
  records := s.records.length
  forwards := s.forwardQueue
  relay := s.relayBuffer
  flight := s.flight.map Flight.record
  next := s.nextRecord

/-- A state with the engine IDLE and `n` the next record number. -/
def State.idleAt (s : State) (n : RecordNumber) : State := { s with flight := none, nextRecord := n }

section
variable {s t u : State}

/-- The form and the bounds read the parts only. -/
theorem StoresFit.congr (h : StoresFit s) (hp : t.queueParts = s.queueParts) : StoresFit t := by
  simp only [State.queueParts, QueueParts.mk.injEq] at hp
  obtain ⟨hstore, hrows, hcells, hcommands, hresponses, hnotices, hjobs, hrecords, hforwards, hrelay, -, -⟩ := hp
  obtain ⟨hcanonical, hlines, hcodes⟩ := (memory_wf_iff s).1 h.memory
  refine ⟨(memory_wf_iff t).2 ⟨hstore ▸ hcanonical, fun i => ?_, fun x => ?_⟩, ?_⟩
  · rw [congrFun hrows i]
    exact hlines i
  · rw [congrFun hcells x]
    exact hcodes x
  · exact
      { commands := hcommands ▸ h.queues.commands
        responses := hresponses ▸ h.queues.responses
        notices := hnotices ▸ h.queues.notices
        jobs := hjobs ▸ h.queues.jobs
        records := hrecords ▸ h.queues.records
        forwards := hforwards ▸ h.queues.forwards
        relay := hrelay ▸ h.queues.relay
        forwardOrder := hforwards ▸ h.queues.forwardOrder }

/-- A change that leaves the parts. -/
theorem QueuesHeld.of_parts (hp : t.queueParts = s.queueParts) : QueuesHeld s t where
  fit h := h.congr hp
  responses := (congrArg (fun p => p.responses.length) hp :).le
  forwards := by
    have : t.forwardQueue = s.forwardQueue := congrArg QueueParts.forwards hp
    rw [this]
  flight f hf := by
    have hflight : t.flight.map Flight.record = s.flight.map Flight.record := congrArg QueueParts.flight hp
    rw [Option.mem_def.1 hf] at hflight
    simpa [eq_comm] using hflight
  next := congrArg QueueParts.next hp

/-- No change. -/
theorem QueuesHeld.refl (s : State) : QueuesHeld s s := .of_parts rfl

/-- Two changes, one after the other. -/
theorem QueuesHeld.trans (h : QueuesHeld s t) (k : QueuesHeld t u) : QueuesHeld s u where
  fit hs := k.fit (h.fit hs)
  responses := k.responses.trans h.responses
  forwards := k.forwards.trans h.forwards
  flight f hf := by
    obtain ⟨g, hg, e⟩ := k.flight f hf
    obtain ⟨g', hg', e'⟩ := h.flight g hg
    exact ⟨g', hg', e'.trans e⟩
  next := k.next.trans h.next

/-- A change is judged by the parts after it. -/
theorem QueuesHeld.congr {t' : State} (h : QueuesHeld s t) (hp : t'.queueParts = t.queueParts) : QueuesHeld s t' :=
  h.trans (.of_parts hp)

/-- A run of operations is held when each is. -/
theorem QueuesHeld.foldl {α : Type} {f : State → α → State} (h : ∀ s a, QueuesHeld s (f s a)) (as : List α)
    (s : State) : QueuesHeld s (as.foldl f s) := by
  induction as generalizing s with
  | nil => exact .refl s
  | cons a as ih => exact (h s a).trans (ih (f s a))

/-- Apart from the job in flight and the next record number, a change is held as with them. -/
theorem QueuesHeld.idleAt (h : QueuesHeld s t) (n : RecordNumber) : QueuesHeld (s.idleAt n) (t.idleAt n) where
  fit hs := by
    have ht := h.fit ⟨hs.memory, { hs.queues with }⟩
    exact ⟨ht.memory, { ht.queues with }⟩
  responses := h.responses
  forwards := h.forwards
  flight f hf := absurd hf (Option.not_mem_none f)
  next := rfl

/-- The Forward Queue is served by a change that leaves one entry a record and no entry for the next record. -/
theorem ForwardsFit.served (h : ForwardsFit t) : ForwardsServed s t :=
  ⟨h.distinct, fun e he hn => absurd hn (h.next e he)⟩

/-- Dropping entries, and landing the job in flight, leave the Forward Queue fit. -/
theorem ForwardsFit.of_held (hs : ForwardsFit s) (h : QueuesHeld s t) : ForwardsFit t where
  distinct := by
    refine ⟨hs.distinct.distinct.sublist h.forwards, fun f hf e he => ?_⟩
    obtain ⟨g, hg, hgf⟩ := h.flight f hf
    exact hgf ▸ hs.distinct.fresh g hg e (h.forwards.subset he)
  next e he := h.next ▸ hs.next e (h.forwards.subset he)

/-- A held change carries the queues. -/
theorem QueuesHeld.carried (h : QueuesHeld s t) : QueuesCarried s t :=
  ⟨h.fit, fun _ hs => (hs.of_held h).served⟩

/-- A change that leaves the parts carries the queues. -/
theorem QueuesCarried.of_parts (hp : t.queueParts = s.queueParts) : QueuesCarried s t :=
  (QueuesHeld.of_parts hp).carried

/-- What a change carries from a state that differs from `s` only where neither the records nor the Forward Queue are
read is carried from `s`, when the memories and bounds are kept up to there. -/
theorem QueuesCarried.of_same {s' : State} (h : QueuesCarried s' t) (hfit : StoresFit s → StoresFit s')
    (hrecords : s'.records = s.records) (hflight : s'.flight = s.flight) (hnext : s'.nextRecord = s.nextRecord)
    (hqueue : s'.forwardQueue = s.forwardQueue) : QueuesCarried s t where
  fit hs := h.fit (hfit hs)
  forwards hr hf := by
    have hr' : RecordsSound s' :=
      { bound := hrecords ▸ hr.bound
        numbers := by rw [hrecords, hnext]; exact hr.numbers
        newest := by rw [hrecords, hflight, hnext]; exact hr.newest
        inProgress := by rw [hrecords, hflight]; exact hr.inProgress
        parts := hrecords ▸ hr.parts }
    have hf' : ForwardsFit s' :=
      ⟨⟨hqueue ▸ hf.distinct.distinct, by rw [hflight, hqueue]; exact hf.distinct.fresh⟩,
        by rw [hqueue, hnext]; exact hf.next⟩
    obtain ⟨hdistinct, hwrapped⟩ := h.forwards hr' hf'
    exact ⟨hdistinct, hnext ▸ hqueue ▸ hwrapped⟩

end

/-! ### The operations that change the parts -/

section
variable (s : State)

/-- A notice raised (R165). -/
theorem held_raise (n : Notice) : QueuesHeld s (s.raise n) := by
  have hle : s.notices.length ≤ 16 → (s.raise n).notices.length ≤ 16 := raise_notices_le n
  obtain ⟨q, k, i, h⟩ := raise_only s n
  rw [h] at hle ⊢
  exact ⟨fun hs => ⟨hs.memory, { hs.queues with notices := hle hs.queues.notices }⟩, le_refl _, .refl _,
    fun f hf => ⟨f, hf, rfl⟩, rfl⟩

/-- A line of a source slot written (R8, R9). -/
theorem held_writeRow (i : Fin 12) (line : Nat) (row : List Pixel) : QueuesHeld s (s.writeRow i line row) :=
  ⟨fun hs => ⟨memory_wf_writeRow i line row hs.memory, { hs.queues with }⟩, le_refl _, .refl _,
    fun f hf => ⟨f, hf, rfl⟩, rfl⟩

/-- A source slot changed but for its lines. -/
theorem queueParts_updSource {i : Fin 12} {f : SourceSlot → SourceSlot} (hf : ∀ x, (f x).rows = x.rows) :
    (s.updSource i f).queueParts = s.queueParts := by
  have : (fun j => (pick (upd s.sourceSlots i f) j).rows) = fun j => (pick s.sourceSlots j).rows := funext fun j => by
    rw [pick_upd]
    split
    · exact hf _
    · rfl
  simp only [State.queueParts, State.updSource, this]

/-- An output slot changed but for its cells. -/
theorem queueParts_updOutput {x : Fin 52} {f : OutputSlot → OutputSlot} (hf : ∀ y, (f y).cells = y.cells) :
    (s.updOutput x f).queueParts = s.queueParts := by
  have : (fun y => (pick (upd s.outputSlots x f) y).cells) = fun y => (pick s.outputSlots y).cells := funext fun y => by
    rw [pick_upd]
    split
    · exact hf _
    · rfl
  simp only [State.queueParts, State.updOutput, this]

/-- A source slot no longer receiving. -/
@[simp] theorem queueParts_stopReceiving (i : Fin 12) : (s.stopReceiving i).queueParts = s.queueParts :=
  queueParts_updSource s fun _ => rfl

/-- A source reference released. -/
@[simp] theorem queueParts_releaseSource (i : Fin 12) : (s.releaseSource i).queueParts = s.queueParts :=
  queueParts_updSource s fun _ => rfl

/-- A record changed. -/
@[simp] theorem queueParts_updRecord (n : RecordNumber) (f : Record → Record) :
    (s.updRecord n f).queueParts = s.queueParts := by
  simp [State.queueParts, State.updRecord]

/-- A record finalised. -/
@[simp] theorem queueParts_finalise (n : RecordNumber) (x : RecordStatus) :
    (s.finalise n x).queueParts = s.queueParts := queueParts_updRecord ..

/-- A view that leaves its waiting state. -/
@[simp] theorem queueParts_settle (v : Fin 16) : (s.settle v).queueParts = s.queueParts := by
  rw [settle_eq]
  rfl

@[simp] theorem queueParts_updPort (c : Fin 4) (f : Port → Port) : (s.updPort c f).queueParts = s.queueParts := rfl
@[simp] theorem queueParts_updView (v : Fin 16) (f : View → View) : (s.updView v f).queueParts = s.queueParts := rfl
@[simp] theorem queueParts_updDescriptor (d : Fin 64) (f : Descriptor → Descriptor) :
    (s.updDescriptor d f).queueParts = s.queueParts := rfl
@[simp] theorem queueParts_countCamera (c : Fin 4) (f : CameraCounters → CameraCounters) :
    (s.countCamera c f).queueParts = s.queueParts := rfl
@[simp] theorem queueParts_countView (v : Fin 16) (f : ViewCounters → ViewCounters) :
    (s.countView v f).queueParts = s.queueParts := rfl
@[simp] theorem queueParts_setSticky (f : StickyFlag) : (s.setSticky f).queueParts = s.queueParts := rfl

/-- Queued jobs removed (R70, R95). -/
theorem held_removeJobs (gone : Job → Bool) : QueuesHeld s (s.removeJobs gone) := by
  have hfiltered : QueuesHeld s { s with jobs := s.jobs.filter fun j => !gone j } :=
    ⟨fun hs => ⟨hs.memory, { hs.queues with
      jobs := (List.length_filter_le _ _).trans hs.queues.jobs }⟩, le_refl _, .refl _, fun f hf => ⟨f, hf, rfl⟩, rfl⟩
  refine hfiltered.trans (.foldl (fun t j => .of_parts ?_) _ _)
  rw [State.cancelJob, queueParts_countView, queueParts_releaseSource]

/-- Words written into the Table Store (R47, R52), whatever becomes of the Load Unit. -/
theorem held_storeWrite (a : Nat) (ws : List Word) (l : LoadUnit) :
    QueuesHeld s { s with tableStore := storeWriteAll s.tableStore a ws, loadUnit := l } :=
  ⟨fun hs => ⟨memory_wf_storeWriteAll a ws hs.memory, { hs.queues with }⟩, le_refl _, .refl _,
    fun f hf => ⟨f, hf, rfl⟩, rfl⟩

end

end Sys2Proof.Machine
end

section
/-! PROOFS. The camera packets, the Uplink Arbiter and the other rows outside the interpreter hold the memories and
queues (spec/01 R5 to R12, spec/10 R154 to R156, spec/11 R160 to R163, R168, R169). -/

namespace Sys2Proof.Machine

/-- A collection with a free place takes one more. -/
theorem length_concat_le {α : Type} {l : List α} {a : α} {n : Nat} (h : l.length < n) : (l ++ [a]).length ≤ n := by
  simpa using Nat.succ_le_of_lt h

/-! ### The camera packets (R5, R8, R11) -/

section
variable (c : Fin 4) (s : State)

/-- A frame damaged. -/
theorem held_damageFrame (r : Reception) (repairs : Nat) : QueuesHeld s (damageFrame c r repairs s) := by
  refine QueuesHeld.trans (.of_parts ?_) (held_raise _ _)
  rw [queueParts_setSticky, queueParts_countCamera, queueParts_updPort, queueParts_stopReceiving]

/-- A line repaired, or the frame damaged. -/
theorem held_repairLine : QueuesHeld s (repairLine c s) := by
  unfold repairLine
  split
  · next r _ =>
    have hwritten := held_writeRow s r.slot r.expected (repairRow c r s)
    dsimp only
    split
    · exact (hwritten.congr (queueParts_countCamera ..)).trans (held_damageFrame ..)
    · exact hwritten.congr ((queueParts_updPort ..).trans (queueParts_countCamera ..))
  all_goals exact .refl s

/-- A run of repairs. -/
theorem held_repairLines (n : Nat) : QueuesHeld s (repairLines c n s) := by
  induction n generalizing s with
  | zero => exact .refl s
  | succ n ih => exact (held_repairLine c s).trans (ih _)

/-- A view's visit by a posted frame: a job joins the queue only where there is room (R80, R81). -/
theorem held_visitView (job : Fin 16 → Job) (v : Fin 16) : QueuesHeld s (visitView job s v) := by
  unfold visitView
  split
  · split
    · next hroom =>
      have hjoined : QueuesHeld s { s with jobs := s.jobs ++ [job v] } :=
        ⟨fun hs => ⟨hs.memory, { hs.queues with jobs := length_concat_le hroom }⟩, le_refl _, .refl _,
          fun f hf => ⟨f, hf, rfl⟩, rfl⟩
      exact hjoined.congr ((queueParts_countView ..).trans (queueParts_updSource _ fun _ => rfl))
    · exact .of_parts (queueParts_countView ..)
  · exact .refl s

/-- A posted frame (R12). -/
theorem held_postFrame (r : Reception) : QueuesHeld s (postFrame c r s) := by
  have hoffered : ∀ t, QueuesHeld t (offerFrame c r t) := QueuesHeld.foldl (fun t v => held_visitView t _ v) _
  refine QueuesHeld.congr (.trans (.of_parts ?_) (hoffered _)) (queueParts_stopReceiving ..)
  rw [trackBlack_eq, sequenceCheck_eq, queueParts_updPort, queueParts_updPort, queueParts_countCamera,
    queueParts_updPort]

/-- A frame closed (R11). -/
theorem held_closeFrame (r : Reception) (sent : Nat) : QueuesHeld s (closeFrame c r sent s) := by
  have hrepaired (n : Nat) : QueuesHeld s (repairLines c n (s.checkSent c sent)) := by
    refine .trans (.of_parts ?_) (held_repairLines ..)
    rw [State.checkSent_eq, queueParts_updPort]
  unfold State.checkSent at hrepaired
  simp only [closeFrame]
  split
  · exact (hrepaired _).trans (held_postFrame ..)
  all_goals exact hrepaired _

/-- A frame begun or turned away (R5). -/
theorem queueParts_beginFrame (f : FrameStartFields) : (beginFrame c f s).queueParts = s.queueParts := by
  rcases beginFrame_cases c f s with ⟨k, e⟩ | ⟨kind, i, -, e⟩
  · rw [e, queueParts_updPort]
  · rw [e, queueParts_updPort, queueParts_updSource]
    exact fun _ => rfl

/-- A good line written (R8). -/
theorem held_writeLine (l : LineFields) : QueuesHeld s (writeLine c l s) := by
  unfold writeLine
  split
  · exact (held_writeRow ..).congr (queueParts_updPort ..)
  all_goals exact .refl s

/-- A line taken (R8). -/
theorem held_takeLine (r : Reception) (l : LineFields) : QueuesHeld s (takeLine c r l s) := by
  simp only [takeLine]
  split
  · exact .refl s
  · split
    · exact .of_parts (queueParts_countCamera ..)
    · split
      · exact (held_repairLines ..).trans (held_writeLine ..)
      · exact (held_repairLines ..).congr (queueParts_countCamera ..)

end

section
variable {c : Fin 4} {packet : List Byte} {s t : State}

/-- FRAME_START. -/
theorem exec_frameStart_held (h : exec (.frameStart c packet) s = .next t) : QueuesHeld s t := by
  simp only [exec, execFrameStart] at h
  split at h
  · cases h
    exact .refl s
  · split at h <;> cases h
    · exact .refl s
    · exact .of_parts (queueParts_beginFrame ..)
    · exact .of_parts (queueParts_beginFrame ..)
    · exact (held_closeFrame ..).congr (queueParts_beginFrame ..)

/-- LINE. -/
theorem exec_line_held (h : exec (.line c packet) s = .next t) : QueuesHeld s t := by
  simp only [exec, execLine] at h
  split at h
  · cases h
    exact .refl s
  · split at h <;> cases h
    · exact held_takeLine ..
    all_goals exact .refl s

/-- FRAME_END. -/
theorem exec_frameEnd_held (h : exec (.frameEnd c packet) s = .next t) : QueuesHeld s t := by
  simp only [exec, execFrameEnd] at h
  split at h
  · cases h
    exact .refl s
  · split at h <;> cases h
    · exact held_closeFrame ..
    all_goals exact .refl s

end

/-! ### The Uplink Arbiter (R154 to R156) -/

section
variable (s : State)

/-- Entries leave the front of the Forward Queue. -/
theorem held_dropForwards {q : List ForwardEntry} (h : q.Sublist s.forwardQueue) :
    QueuesHeld s { s with forwardQueue := q } :=
  ⟨fun hs => ⟨hs.memory, { hs.queues with
    forwards := h.length_le.trans hs.queues.forwards
    forwardOrder := hs.queues.forwardOrder.sublist h }⟩, le_refl _, h, fun f hf => ⟨f, hf, rfl⟩, rfl⟩

/-- The end of a transmission (R156). -/
theorem queueParts_sendEnd (x : Transmission) (truncated : Bool) :
    (sendEnd x truncated s).queueParts = s.queueParts := by
  have hreleased := queueParts_updOutput s (x := x.entry.mark.slot) (f := fun y => { y with held := false })
    fun _ => rfl
  simp only [sendEnd]
  split <;> exact hreleased

/-- A new transmission (R155). -/
theorem queueParts_beginTransmission (e : ForwardEntry) : (beginTransmission e s).queueParts = s.queueParts := by
  have hheld := queueParts_updOutput s (x := e.mark.slot) (f := fun y => { y with held := true }) fun _ => rfl
  simp only [beginTransmission]
  split <;> exact hheld

/-- The stale entries dropped and a new transmission begun (R155). -/
theorem held_startTransmission : QueuesHeld s (startTransmission s) := by
  obtain ⟨views, hstale⟩ := foldl_countStale (s.forwardQueue.takeWhile s.entryStale) s
  simp only [startTransmission, hstale]
  split
  · exact (held_dropForwards s (List.nil_sublist _)).congr rfl
  · next e rest hq =>
    have hsub : rest.Sublist s.forwardQueue :=
      (List.sublist_cons_self e rest).trans (hq ▸ List.dropWhile_sublist _)
    exact (held_dropForwards s hsub).congr (queueParts_beginTransmission ..)

/-- The fourth and fifth places of the arbiter's order (R154). -/
theorem held_sendImage : QueuesHeld s (sendImage s) := by
  unfold sendImage
  split
  · split
    · exact .of_parts (queueParts_sendEnd ..)
    · split
      · exact .of_parts rfl
      · split
        · exact .of_parts rfl
        · exact .of_parts (queueParts_sendEnd ..)
  · split
    · exact .of_parts rfl
    · exact held_startTransmission s

/-- UPLINK_PORT_READY. -/
theorem held_arbitrate : QueuesHeld s (arbitrate s) := by
  unfold arbitrate
  split
  · next r rest hr =>
    have hlen : rest.length ≤ s.responses.length := by simp [hr]
    exact ⟨fun hs => ⟨hs.memory, { hs.queues with responses := hlen.trans hs.queues.responses }⟩, hlen, .refl _,
      fun f hf => ⟨f, hf, rfl⟩, rfl⟩
  · split
    · have hlen : (s.relayBuffer.drop Config.relayPacketBytes).length ≤ s.relayBuffer.length := by simp
      exact ⟨fun hs => ⟨hs.memory, { hs.queues with relay := hlen.trans hs.queues.relay }⟩, le_refl _, .refl _,
        fun f hf => ⟨f, hf, rfl⟩, rfl⟩
    · split
      · next n rest hn =>
        have hlen : rest.length ≤ s.notices.length := by simp [hn]
        exact ⟨fun hs => ⟨hs.memory, { hs.queues with notices := hlen.trans hs.queues.notices }⟩, le_refl _, .refl _,
          fun f hf => ⟨f, hf, rfl⟩, rfl⟩
      · exact held_sendImage s

end

/-! ### The rows outside the interpreter (R160 to R163, R168, R169) -/

section
variable {s t : State} {p : Packet} {rest : List Packet}

/-- A packet buffered where there is room, or lost (R162). -/
theorem held_bufferPacket (p : Packet) (s : State) : QueuesHeld s (bufferPacket p s) := by
  unfold bufferPacket
  split
  · next hroom =>
    exact ⟨fun hs => ⟨hs.memory, { hs.queues with commands := length_concat_le hroom }⟩, le_refl _,
      .refl _, fun f hf => ⟨f, hf, rfl⟩, rfl⟩
  · exact .of_parts rfl

/-- DOWNLINK_PACKET. -/
theorem exec_downlinkPacket_held {packet : List Byte} (h : exec (.downlinkPacket packet) s = .next t) :
    QueuesHeld s t := by
  simp only [exec, execDownlinkPacket] at h
  split at h <;> cases h
  · exact .of_parts rfl
  · unfold dispatchPacket
    split
    · refine .trans (.of_parts ?_) (held_bufferPacket ..)
      rfl
    · split
      · refine .trans (.of_parts ?_) (held_bufferPacket ..)
        rfl
      · exact .of_parts rfl

/-- The head packet leaves the Command Buffer (R163). -/
theorem held_takePacket (h : s.commandBuffer = p :: rest) : QueuesHeld s { s with commandBuffer := rest } := by
  have hlen : rest.length ≤ s.commandBuffer.length := by simp [h]
  exact ⟨fun hs => ⟨hs.memory, { hs.queues with commands := hlen.trans hs.queues.commands }⟩, le_refl _, .refl _,
    fun f hf => ⟨f, hf, rfl⟩, rfl⟩

/-- A response placed after a change that adds none, where the Response Queue had room (R163, R164). -/
theorem QueuesCarried.respond (h : QueuesCarried s t) (hroom : t.responses.length < 4) (p : Packet) (status : Status)
    (data : List Byte) : QueuesCarried s (t.respond p status data) where
  fit hs := ⟨(h.fit hs).memory, { (h.fit hs).queues with responses := length_concat_le hroom }⟩
  forwards hr hf := by
    obtain ⟨hdistinct, hwrapped⟩ := h.forwards hr hf
    exact ⟨⟨hdistinct.distinct, hdistinct.fresh⟩, hwrapped⟩

/-- UNKNOWN_COMMAND. -/
theorem exec_unknownCommand_queues (h : exec .unknownCommand s = .next t) : QueuesCarried s t := by
  simp only [exec, execUnknownCommand] at h
  split at h
  · cases h
    exact .of_parts rfl
  · next p rest hb =>
    split at h
    · next hroom =>
      cases h
      exact (held_takePacket hb).carried.respond hroom.2.2 ..
    · cases h
      exact .of_parts rfl

/-- BROADCAST_IGNORED. -/
theorem exec_broadcastIgnored_held (h : exec .broadcastIgnored s = .next t) : QueuesHeld s t := by
  simp only [exec, execBroadcastIgnored] at h
  split at h
  · cases h
    exact .refl s
  · next p rest hb =>
    split at h <;> cases h
    · exact held_takePacket hb
    · exact .refl s

/-- STARTUP_SWEEP_END: the store is empty (R21). -/
theorem exec_startupSweepEnd_held (h : exec .startupSweepEnd s = .next t) : QueuesHeld s t := by
  cases h
  split
  · refine ⟨fun hs => ⟨?_, { hs.queues with }⟩, le_refl _, .refl _, fun f hf => ⟨f, hf, rfl⟩, rfl⟩
    exact (memory_wf_iff _).2 ⟨rfl, ((memory_wf_iff s).1 hs.memory).2⟩
  · exact .refl s

/-- RELAY_BYTE. -/
theorem exec_relayByte_held {b : Byte} (h : exec (.relayByte b) s = .next t) : QueuesHeld s t := by
  cases h
  split
  · next hroom =>
    exact ⟨fun hs => ⟨hs.memory, { hs.queues with relay := length_concat_le hroom }⟩, le_refl _,
      .refl _, fun f hf => ⟨f, hf, rfl⟩, rfl⟩
  · exact .of_parts rfl

/-- RELAY_IDLE_TIMEOUT. -/
theorem exec_relayIdleTimeout_held (h : exec .relayIdleTimeout s = .next t) : QueuesHeld s t := by
  cases h
  split
  · exact .refl s
  · exact .of_parts rfl

end

end Sys2Proof.Machine
end

section
/-! PROOFS. The commands hold the memories and queues, but for a recall, which offers a forward entry (spec/10 R150 to
R153, spec/11 R163). -/

namespace Sys2Proof.Machine

/-! ### Offers (R151) -/

section
variable (s : State) (e : ForwardEntry)

/-- A dropped entry reported. -/
theorem held_reportDrop (isNew : Bool) : QueuesHeld s (s.reportDrop e isNew) := by
  refine .trans (.of_parts ?_) (held_raise ..)
  rw [queueParts_setSticky, queueParts_countView]

/-- A full Forward Queue has an entry of its lowest priority. -/
theorem exists_find_lowest {q : List ForwardEntry} (h : q ≠ []) :
    ∃ x, q.find? (fun x => x.priority == lowestPriority q) = some x := by
  obtain ⟨x, hx, hp⟩ := lowestPriority_mem h
  exact Option.isSome_iff_exists.1 (List.find?_isSome.2 ⟨x, hx, beq_iff_eq.2 hp⟩)

/-- Everything an offer can do: the entry is dropped, or it joins what stands of the queue, which has a free place if
the queue was within its places (R151). -/
theorem offer_cases : QueuesHeld s (s.offer e) ∨ ∃ q, q.Sublist s.forwardQueue
    ∧ (s.forwardQueue.length ≤ 64 → q.length < 64)
    ∧ QueuesHeld { s with forwardQueue := enqueue e q } (s.offer e) := by
  simp only [State.offer]
  split
  · next hroom => exact .inr ⟨_, .refl _, fun _ => hroom, .refl _⟩
  · next hfull =>
    simp only [Config.forwardPlaces, not_lt] at hfull
    have hne : s.forwardQueue ≠ [] := List.ne_nil_of_length_pos (by omega)
    obtain ⟨old, hold⟩ := exists_find_lowest hne
    rw [hold]
    split
    · refine .inr ⟨_, List.eraseP_sublist, fun hle => ?_, held_reportDrop ..⟩
      rw [List.length_eraseP_of_mem (List.mem_of_find?_eq_some hold) (List.find?_some hold)]
      omega
    · exact .inl (held_reportDrop ..)

/-- An entry that joins a queue with a free place keeps the bounds and the order. -/
theorem StoresFit.enqueue {s : State} (hs : StoresFit s) {q : List ForwardEntry} (hq : q.Sublist s.forwardQueue)
    (hlen : q.length < 64) : StoresFit { s with forwardQueue := enqueue e q } :=
  ⟨hs.memory, { hs.queues with
    forwards := by rw [enqueue_length]; exact hlen
    forwardOrder := enqueue_sorted e (hs.queues.forwardOrder.sublist hq) }⟩

/-- An offer keeps the memories, the bounds and the order. -/
theorem StoresFit.offer {s : State} (hs : StoresFit s) : StoresFit (s.offer e) := by
  rcases offer_cases s e with h | ⟨q, hq, hlen, h⟩
  · exact h.fit hs
  · exact h.fit (hs.enqueue e hq (hlen hs.queues.forwards))

/-- An offer places no response. -/
@[simp] theorem offer_responses : (s.offer e).responses = s.responses := by
  obtain ⟨fq, vs, q, k, i, h⟩ := offer_only s e
  rw [h]

/-- An offer makes no record number. -/
@[simp] theorem offer_nextRecord : (s.offer e).nextRecord = s.nextRecord := by
  obtain ⟨fq, vs, q, k, i, h⟩ := offer_only s e
  rw [h]

/-- The entries after an offer: those that stood, and the new one. -/
theorem mem_offer {s : State} {e x : ForwardEntry} (h : x ∈ (s.offer e).forwardQueue) :
    x = e ∨ x ∈ s.forwardQueue := by
  rcases offer_cases s e with k | ⟨q, hq, -, k⟩
  · exact .inr (k.forwards.subset h)
  · exact (mem_enqueue (k.forwards.subset h)).imp_right fun hx => hq.subset hx

/-- Joining rearranges nothing but the new entry. -/
theorem enqueue_perm (q : List ForwardEntry) : (enqueue e q).Perm (e :: q) := by
  refine List.perm_middle.trans (List.Perm.cons e ?_)
  rw [List.takeWhile_append_dropWhile]

/-- An entry whose record no entry, no job in flight and not the next number names leaves one entry a record. -/
theorem ForwardsFit.offer {s : State} {e : ForwardEntry} (h : ForwardsFit s)
    (hqueue : ∀ x ∈ s.forwardQueue, e.record ≠ x.record) (hflight : ∀ f ∈ s.flight, e.record ≠ f.record)
    (hnext : e.record ≠ s.nextRecord) : ForwardsFit (s.offer e) := by
  rcases offer_cases s e with k | ⟨q, hq, -, k⟩
  · exact h.of_held k
  · refine ForwardsFit.of_held ⟨⟨?_, fun f hf x hx => ?_⟩, fun x hx => ?_⟩ k
    · rw [(enqueue_perm e q).pairwise_iff fun hxy => hxy.symm, List.pairwise_cons]
      exact ⟨fun x hx => hqueue x (hq.subset hx), h.distinct.distinct.sublist hq⟩
    · rcases mem_enqueue hx with rfl | hx
      · exact hflight f hf
      · exact h.distinct.fresh f hf x (hq.subset hx)
    · rcases mem_enqueue hx with rfl | hx
      · exact hnext
      · exact h.next x (hq.subset hx)

end

/-! ### The interpreter (R163) -/

/-- A command's rule that leaves the parts the invariants of the memories and queues read. -/
def LeavesQueues (rule : List Byte → State → Answer) : Prop :=
  ∀ payload s, ((rule payload s).left s).queueParts = s.queueParts

/-- A command's rule that holds the memories and queues. -/
def HoldsQueues (rule : List Byte → State → Answer) : Prop :=
  ∀ payload s, QueuesHeld s ((rule payload s).left s)

/-- A command's rule that carries the memories and queues and places no response. -/
def CarriesQueues (rule : List Byte → State → Answer) : Prop :=
  ∀ payload s, QueuesCarried s ((rule payload s).left s)
    ∧ ((rule payload s).left s).responses.length ≤ s.responses.length

/-- A rule that leaves the parts holds them. -/
theorem LeavesQueues.holds {rule : List Byte → State → Answer} (h : LeavesQueues rule) : HoldsQueues rule :=
  fun payload s => .of_parts (h payload s)

/-- A rule that holds the queues carries them. -/
theorem HoldsQueues.carries {rule : List Byte → State → Answer} (h : HoldsQueues rule) : CarriesQueues rule :=
  fun payload s => ⟨(h payload s).carried, (h payload s).responses⟩

/-- The checks of R163 leave the parts, or the rule runs. -/
theorem CarriesQueues.checked {rule : List Byte → State → Answer} (h : CarriesQueues rule) (c : Command)
    (payload : List Byte) (s : State) : QueuesCarried s ((checked c payload rule s).left s)
      ∧ ((checked c payload rule s).left s).responses.length ≤ s.responses.length := by
  rcases checked_cases c payload rule s with ⟨-, -, e⟩ | ⟨-, -, e⟩ | ⟨-, -, e⟩ | ⟨-, e⟩ | ⟨-, e⟩ <;> rw [e]
  · exact ⟨.of_parts rfl, le_refl _⟩
  · exact ⟨.of_parts rfl, le_refl _⟩
  · exact ⟨.of_parts rfl, le_refl _⟩
  · exact ⟨.of_parts rfl, le_refl _⟩
  · exact h payload s

/-- What is carried from the state without its head packet is carried from the state. -/
theorem QueuesCarried.of_taken {s t : State} {p : Packet} {rest : List Packet} (hb : s.commandBuffer = p :: rest)
    (h : QueuesCarried { s with commandBuffer := rest } t) : QueuesCarried s t :=
  h.of_same (held_takePacket hb).fit rfl rfl rfl rfl

/-- A row of the interpreter carries the queues when its command's rule does. -/
theorem CarriesQueues.row {rule : List Byte → State → Answer} (h : CarriesQueues rule) {c : Command} {s t : State}
    (ht : runCommand c rule s = .next t) : QueuesCarried s t := by
  rcases runCommand_cases c rule s with e | ⟨p, rest, hst, ⟨u, status, data, hu, e⟩ | ⟨f, -, e⟩⟩
  · cases e.symm.trans ht
    exact .of_parts rfl
  · cases e.symm.trans ht
    obtain ⟨hcarried, hlen⟩ := h.checked c p.payload { s with commandBuffer := rest }
    rw [hu] at hcarried hlen
    exact (hcarried.of_taken hst.buffer).respond (hlen.trans_lt hst.room) p status data
  · cases e.symm.trans ht

/-- A row also executed by broadcast carries the queues when its rule and its effect do. -/
theorem CarriesQueues.broadcastRow {rule : List Byte → State → Answer} {effect : List Byte → State → State}
    (h : CarriesQueues rule) (he : ∀ payload s, QueuesCarried s (effect payload s)) {c : Command} {s t : State}
    (ht : runBroadcastable c rule effect s = .next t) : QueuesCarried s t := by
  rcases runBroadcastable_cases c rule effect s with e | ⟨p, rest, hb, -, -, -, e⟩
  · exact h.row (e ▸ ht)
  · cases e.symm.trans ht
    exact (he p.payload _).of_taken hb

/-! ### Commands that leave the parts

In every branch of each of these rules the fields that change are none these invariants read. -/

theorem leavesQueues_identify : LeavesQueues identifyRule := fun _ _ => rfl

theorem leavesQueues_getStatus : LeavesQueues getStatusRule := fun _ _ => rfl

theorem leavesQueues_clearStatus : LeavesQueues clearStatusRule := fun payload s => by
  simp only [clearStatusRule]
  split <;> rfl

theorem leavesQueues_setNoticeMask : LeavesQueues setNoticeMaskRule := fun payload s => by
  simp only [setNoticeMaskRule]
  split <;> rfl

theorem leavesQueues_readCounters : LeavesQueues readCountersRule := fun payload s => by
  simp only [readCountersRule]
  repeat' split
  all_goals rfl

theorem leavesQueues_setCamera : LeavesQueues setCameraRule := fun payload s => by
  simp only [setCameraRule]
  repeat' split
  all_goals rfl

theorem leavesQueues_cameraEnable : LeavesQueues cameraEnableRule := fun payload s => by
  simp only [cameraEnableRule, enableCamera, disableCamera]
  split
  · repeat' split
    all_goals rfl
  · split
    · rfl
    · rfl
    · rfl
    · exact (queueParts_updPort ..).trans (queueParts_stopReceiving ..)
  · rfl

theorem leavesQueues_setBlackLevel : LeavesQueues setBlackLevelRule := fun payload s => by
  simp only [setBlackLevelRule]
  split <;> rfl

theorem leavesQueues_writeDescriptor : LeavesQueues writeDescriptorRule := fun payload s => by
  simp only [writeDescriptorRule]
  repeat' split
  all_goals rfl

theorem leavesQueues_readDescriptor : LeavesQueues readDescriptorRule := fun payload s => by
  simp only [readDescriptorRule]
  repeat' split
  all_goals rfl

theorem leavesQueues_clearAccessed : LeavesQueues clearAccessedRule := fun _ _ => rfl

theorem leavesQueues_lock (next : LockState → Option LockState) : LeavesQueues (lockRule next) := fun payload s => by
  simp only [lockRule]
  repeat' split
  all_goals rfl

theorem leavesQueues_setWindow : LeavesQueues setWindowRule := fun payload s => by
  simp only [setWindowRule]
  repeat' split
  all_goals rfl

theorem leavesQueues_protectionLock : LeavesQueues protectionLockRule := fun _ _ => rfl

theorem leavesQueues_loadOpen : LeavesQueues loadOpenRule := fun payload s => by
  simp only [loadOpenRule]
  repeat' split
  all_goals rfl

theorem leavesQueues_loadData : LeavesQueues loadDataRule := fun payload s => by
  simp only [loadDataRule]
  repeat' split
  all_goals rfl

theorem leavesQueues_loadCancel : LeavesQueues loadCancelRule := fun payload s => by
  simp only [loadCancelRule]
  split <;> rfl

theorem leavesQueues_streamOpen : LeavesQueues streamOpenRule := fun payload s => by
  simp only [streamOpenRule]
  repeat' split
  all_goals rfl

theorem leavesQueues_streamCancel : LeavesQueues streamCancelRule := fun payload s => by
  simp only [streamCancelRule]
  split <;> rfl

theorem leavesQueues_readTable : LeavesQueues readTableRule := fun payload s => by
  simp only [readTableRule]
  repeat' split
  all_goals rfl

theorem leavesQueues_writeView : LeavesQueues writeViewRule := fun payload s => by
  simp only [writeViewRule]
  repeat' split
  all_goals rfl

theorem leavesQueues_readView : LeavesQueues readViewRule := fun payload s => by
  simp only [readViewRule]
  split <;> rfl

theorem leavesQueues_viewActivate : LeavesQueues viewActivateRule := fun payload s => by
  simp only [viewActivateRule]
  repeat' split
  all_goals rfl

theorem leavesQueues_viewHold : LeavesQueues viewHoldRule := fun payload s => by
  simp only [viewHoldRule]
  repeat' split
  all_goals rfl

theorem leavesQueues_readRecords : LeavesQueues readRecordsRule := fun payload s => by
  simp only [readRecordsRule]
  split <;> rfl

/-- The Time Tag Counter's update. -/
theorem queueParts_setTimeTag (payload : List Byte) (s : State) :
    (setTimeTag payload s).queueParts = s.queueParts := by
  unfold setTimeTag
  split <;> rfl

theorem leavesQueues_setTimeTag : LeavesQueues setTimeTagRule := fun payload s => by
  simp only [setTimeTagRule]
  split
  · exact queueParts_setTimeTag payload s
  · rfl

theorem leavesQueues_uplinkPause : LeavesQueues uplinkPauseRule := fun _ _ => rfl

theorem leavesQueues_uplinkResume : LeavesQueues uplinkResumeRule := fun _ _ => rfl

/-! ### Commands that write words, remove jobs or empty the queues -/

/-- Load Commit (R47). -/
theorem holdsQueues_loadCommit : HoldsQueues loadCommitRule := fun payload s => by
  simp only [loadCommitRule]
  repeat' split
  case isFalse.isFalse.isFalse.isFalse => exact held_storeWrite ..
  all_goals exact .of_parts rfl

/-- Stream Data (R52). -/
theorem holdsQueues_streamData : HoldsQueues streamDataRule := fun payload s => by
  simp only [streamDataRule]
  repeat' split
  case isFalse.isFalse.isTrue => exact held_storeWrite ..
  case isFalse.isFalse.isFalse => exact held_storeWrite ..
  all_goals exact .of_parts rfl

/-- Uplink Flush (R158). -/
theorem holdsQueues_uplinkFlush : HoldsQueues uplinkFlushRule := fun _ s =>
  (held_dropForwards s (List.nil_sublist _)).congr rfl

/-- View Disable (R70). -/
theorem holdsQueues_viewDisable : HoldsQueues viewDisableRule := fun payload s => by
  simp only [viewDisableRule]
  split
  · exact .of_parts rfl
  · next v _ =>
    simp only [disableView, viewStateReply, Answer.left]
    split <;> exact (held_removeJobs s fun j => j.view == v).congr (queueParts_updView ..)

/-- Soft Reset keeps the records and their numbers, and empties every queue (R170). -/
theorem held_softReset (s : State) : QueuesHeld s (softReset s) where
  fit hs := by
    obtain ⟨hcanonical, hlines, hcodes⟩ := (memory_wf_iff s).1 hs.memory
    have habort : (abortRecord s).queueParts = s.queueParts := by
      unfold abortRecord
      split
      · exact queueParts_finalise ..
      · rfl
    have hs' := hs.congr habort
    refine ⟨(memory_wf_iff _).2 ⟨((memory_wf_iff _).1 hs'.memory).1, fun i => ?_, ((memory_wf_iff _).1 hs'.memory).2.2⟩,
      ?_⟩
    · rw [softReset, pick_updAll]
      exact hlines i
    · exact { hs'.queues with
        commands := Nat.zero_le _
        responses := Nat.zero_le _
        notices := Nat.zero_le _
        jobs := Nat.zero_le _
        forwards := Nat.zero_le _
        relay := Nat.zero_le _
        forwardOrder := .nil }
  responses := Nat.zero_le _
  forwards := List.nil_sublist _
  flight f hf := absurd hf (Option.not_mem_none f)
  next := by
    simp only [softReset, abortRecord]
    split <;> rfl

/-! ### Recalls (R152, R153) -/

/-- No record held has the next number (R139). -/
theorem RecordsSound.fresh {s : State} (h : RecordsSound s) {r : Record} (hr : r ∈ s.records) :
    r.number ≠ s.nextRecord := by
  have hmem := List.mem_map_of_mem (f := Record.number) hr
  rw [h.numbers] at hmem
  obtain ⟨i, hi, e⟩ := List.mem_map.1 hmem
  have hlt := List.mem_range.1 hi
  have hbound := h.bound
  rw [← e]
  bv_omega

/-- The record found is held and has the number. -/
theorem mem_of_findRecord {s : State} {n : RecordNumber} {r : Record} (h : s.findRecord n = some r) :
    r ∈ s.records ∧ r.number = n := by
  unfold State.findRecord at h
  exact ⟨List.mem_of_find?_eq_some h, by simpa using List.find?_some h⟩

/-- Everything an accepted recall does: nothing, or the offer of an entry for a record held COMPLETE or DEGRADED that no
entry waits for (R152). -/
theorem recallRecord_cases {n : RecordNumber} {s t : State} {d : Disposition} (h : recallRecord n s = .ok (t, d)) :
    t = s ∨ ∃ r ∈ s.records, ∃ m, t = s.offer (recallEntry s r m) ∧ r.status ≠ .inProgress
      ∧ ∀ e ∈ s.forwardQueue, r.number ≠ e.record := by
  unfold recallRecord at h
  split at h
  · cases h
  · next r hr =>
    split at h
    · cases h
    · next hstatus =>
      split at h
      · cases h
      · next m _ =>
        split at h
        · cases h
        · split at h
          · cases h
            exact .inl rfl
          · next hpending =>
            cases h
            obtain ⟨hmem, hnumber⟩ := mem_of_findRecord hr
            refine .inr ⟨r, hmem, m, rfl, fun hp => hstatus (by simp [hp]), fun e he heq => ?_⟩
            simp only [State.forwardPending, Bool.or_eq_true, not_or, List.any_eq_true, not_exists, not_and,
              beq_iff_eq] at hpending
            exact hpending.1 e he (heq.symm.trans hnumber)

/-- A recall carries the queues: the record it recalls is neither the next one nor in flight. -/
theorem recallRecord_carried {n : RecordNumber} {s t : State} {d : Disposition} (h : recallRecord n s = .ok (t, d)) :
    QueuesCarried s t ∧ t.responses.length ≤ s.responses.length := by
  rcases recallRecord_cases h with rfl | ⟨r, hr, m, rfl, hstatus, hqueue⟩
  · exact ⟨.of_parts rfl, le_refl _⟩
  · refine ⟨⟨fun hs => hs.offer _, fun hrec hf => (hf.offer hqueue (fun f hfl e => ?_) (hrec.fresh hr)).served⟩,
      by rw [offer_responses]⟩
    exact hstatus ((hrec.inProgress r hr).2 ⟨f, hfl, e.symm⟩)

/-- Recall Frame (R152). -/
theorem carriesQueues_recallFrame : CarriesQueues recallFrameRule := fun payload s => by
  simp only [recallFrameRule]
  split
  · exact ⟨.of_parts rfl, le_refl _⟩
  · next h => exact recallRecord_carried h

/-- Recall Latest (R153). -/
theorem carriesQueues_recallLatest : CarriesQueues recallLatestRule := fun payload s => by
  simp only [recallLatestRule]
  split
  · exact ⟨.of_parts rfl, le_refl _⟩
  · split
    · exact ⟨.of_parts rfl, le_refl _⟩
    · split
      · exact ⟨.of_parts rfl, le_refl _⟩
      · next h => exact recallRecord_carried h

end Sys2Proof.Machine
end

section
/-! PROOFS. The engine carries the memories and queues: the job that ends offers its record, and the next start takes
the next record number (spec/05, spec/09 R139, R140, spec/10 R150). Every row and every step does. -/

namespace Sys2Proof.Machine

/-! ### The start of a job (R82 to R90) -/

/-- The state once the head job's record is made and has joined the list (R139, R140). -/
def State.listed (s : State) (j : Job) : State :=
  { s with
    records := (if decide (Config.recordPlaces ≤ s.records.length) then s.records.drop 1 else s.records)
      ++ [newRecord s j]
    nextRecord := s.nextRecord + 1 }

/-- The creation of a record: it joins the list, and RECORD_ROLLOVER may be raised (R140). -/
theorem createRecord_cases (j : Job) (s : State) : createRecord j s = s.listed j
    ∨ createRecord j s = (s.listed j).raise (.recordRollover s.nextRecord) := by
  simp only [createRecord]
  split
  · exact .inr rfl
  · exact .inl rfl

section
variable (j : Job) (n : RecordNumber) (s : State)

/-- A record joins the list, the oldest going at 1024 (R139). -/
theorem held_listed : QueuesHeld (s.idleAt n) ((s.listed j).idleAt n) := by
  refine ⟨fun hs => ⟨hs.memory, { hs.queues with records := length_concat_le ?_ }⟩, le_refl _, .refl _,
    fun f hf => ⟨f, hf, rfl⟩, rfl⟩
  have hbound : s.records.length ≤ 1024 := hs.queues.records
  split
  · rw [List.length_drop]
    omega
  · next hroom => exact not_le.1 fun hfull => hroom (decide_eq_true hfull)

/-- The creation of a record (R140). -/
theorem held_createRecord : QueuesHeld (s.idleAt n) ((createRecord j s).idleAt n) := by
  rcases createRecord_cases j s with e | e <;> rw [e]
  · exact held_listed j n s
  · exact (held_listed j n s).trans ((held_raise ..).idleAt n)

/-- A job skipped (R84). -/
theorem queueParts_skipJob : (skipJob j n s).queueParts = s.queueParts := by
  rw [skipJob, queueParts_settle, queueParts_releaseSource, queueParts_countView, queueParts_finalise,
    queueParts_updRecord]

/-- A job that faults (R89). -/
theorem held_faultJob (x : TableFailure) : QueuesHeld s (faultJob j n x s) := by
  refine QueuesHeld.congr (.trans (.of_parts ?_) (held_raise ..)) ((queueParts_settle ..).trans
    (queueParts_releaseSource ..))
  rw [queueParts_setSticky, queueParts_countView, queueParts_finalise]

/-- The stages of a job begin: its slot's generation advances and its record is marked (R90). -/
theorem held_beginStages (x : Fin 52) (l : Latched) (t : TableLatch) (m : Mesh) (k : RecordNumber) :
    QueuesHeld (s.idleAt k) ((beginStages j n x l t m s).idleAt k) := by
  have hmarked (f : OutputSlot → OutputSlot) (hf : ∀ y, (f y).cells = y.cells) (g : Record → Record) :
      ((s.updOutput x f).updRecord n g).queueParts = s.queueParts := by
    rw [queueParts_updRecord, queueParts_updOutput s hf]
  exact ((QueuesHeld.of_parts (hmarked (fun y => { y with generation := y.generation + 1 }) (fun _ => rfl) _)).idleAt
    k).congr rfl

/-- The stages of a job begin under a number already taken. -/
theorem beginStages_next (x : Fin 52) (l : Latched) (t : TableLatch) (m : Mesh) :
    (beginStages j n x l t m s).nextRecord = s.nextRecord := rfl

/-- The job whose stages begin is in flight with its record's number (R90). -/
theorem beginStages_record {j : Job} {n : RecordNumber} {s : State} {x : Fin 52} {l : Latched} {t : TableLatch}
    {m : Mesh} {f : Flight} (hf : f ∈ (beginStages j n x l t m s).flight) : f.record = n := by
  cases hf
  rfl

/-- Steps 3 to 7 of a start: a job that faults, or one in flight under its record's number (R85 to R90). -/
theorem held_latchJob (x : Fin 52) (k : RecordNumber) :
    QueuesHeld (s.idleAt k) ((latchJob j n x s).idleAt k)
    ∧ (latchJob j n x s).nextRecord = s.nextRecord
    ∧ ∀ f ∈ (latchJob j n x s).flight, f.record = n ∨ ∃ g ∈ s.flight, g.record = f.record := by
  have hmarked (ds : List (Fin 64)) (f : Record → Record) :
      QueuesHeld s ((s.markAccessed ds).updRecord n f) := by
    refine .of_parts ?_
    rw [queueParts_updRecord, markAccessed_eq]
    rfl
  have hheld {t : State} (h : QueuesHeld s t) : QueuesHeld (s.idleAt k) (t.idleAt k)
      ∧ t.nextRecord = s.nextRecord ∧ ∀ f ∈ t.flight, f.record = n ∨ ∃ g ∈ s.flight, g.record = f.record :=
    ⟨h.idleAt k, h.next, fun f hf => .inr (h.flight f hf)⟩
  simp only [latchJob]
  split
  · exact hheld ((hmarked _ _).trans (held_faultJob ..))
  · split
    · exact ⟨((hmarked _ _).idleAt k).trans (held_beginStages ..), (beginStages_next ..).trans (hmarked _ _).next,
        fun f hf => .inl (beginStages_record hf)⟩
    · exact hheld ((hmarked _ _).trans (held_faultJob ..))

end

/-- The record's creation takes the next number and starts no job (R140). -/
theorem createRecord_next (j : Job) (s : State) :
    (createRecord j s).nextRecord = s.nextRecord + 1 ∧ (createRecord j s).flight = s.flight := by
  rcases createRecord_cases j s with e | e <;> rw [e]
  · exact ⟨rfl, rfl⟩
  · obtain ⟨q, k, i, h⟩ := raise_only (s.listed j) (.recordRollover s.nextRecord)
    rw [h]
    exact ⟨rfl, rfl⟩

/-- The start of a job: but for the engine and the next record number it is held; it takes the next number, and a job in
flight has it (05 5.3). -/
theorem startJob_held {j : Job} {s t : State} (hidle : s.flight = none) (h : startJob j s = .ok t) :
    QueuesHeld (s.idleAt 0) (t.idleAt 0)
    ∧ t.nextRecord = s.nextRecord + 1 ∧ ∀ f ∈ t.flight, f.record = s.nextRecord := by
  have hcreated := held_createRecord j 0 s
  obtain ⟨hnext, hflight⟩ := createRecord_next j s
  rw [hidle] at hflight
  simp only [startJob] at h
  split at h
  · cases h
  · next x _ =>
    split at h <;> cases h
    · have hskipped := QueuesHeld.of_parts (queueParts_skipJob j s.nextRecord (createRecord j s))
      refine ⟨hcreated.trans (hskipped.idleAt 0), hskipped.next.trans hnext, fun f hf => ?_⟩
      obtain ⟨g, hg, -⟩ := hskipped.flight f hf
      exact absurd (hflight ▸ hg) (Option.not_mem_none g)
    · obtain ⟨hlatched, hnext', hrecord⟩ := held_latchJob j s.nextRecord (createRecord j s) x 0
      refine ⟨hcreated.trans hlatched, hnext'.trans hnext, fun f hf => (hrecord f hf).resolve_right ?_⟩
      rintro ⟨g, hg, -⟩
      exact absurd (hflight ▸ hg) (Option.not_mem_none g)

/-- The engine's start of the head job (R82): nothing happens, or the start is held but for the engine and the next
record number, which it takes. -/
theorem startHead_cases {s t : State} (h : startHead s = .ok t) : t = s ∨
    (s.flight = none
      ∧ QueuesHeld (s.idleAt 0) (t.idleAt 0)
      ∧ t.nextRecord = s.nextRecord + 1 ∧ ∀ f ∈ t.flight, f.record = s.nextRecord) := by
  unfold startHead at h
  split at h
  · next j rest hidle hjobs =>
    have htaken : QueuesHeld s { s with jobs := rest } := by
      have hlen : rest.length ≤ s.jobs.length := by simp [hjobs]
      exact ⟨fun hs => ⟨hs.memory, { hs.queues with jobs := hlen.trans hs.queues.jobs }⟩, le_refl _, .refl _,
        fun f hf => ⟨f, hf, rfl⟩, rfl⟩
    obtain ⟨hheld, hnext, hrecord⟩ := startJob_held (s := { s with jobs := rest }) hidle h
    exact .inr ⟨hidle, (htaken.idleAt 0).trans hheld, hnext, hrecord⟩
  · cases h
    exact .inl rfl
  · cases h
    exact .inl rfl

section
variable {s t u : State}

/-- The memories and bounds are kept by a start. -/
theorem StoresFit.start (hs : StoresFit s) (h : startHead s = .ok t) : StoresFit t := by
  rcases startHead_cases h with rfl | ⟨-, hheld, -, -⟩
  · exact hs
  · have ht := hheld.fit ⟨hs.memory, { hs.queues with }⟩
    exact ⟨ht.memory, { ht.queues with }⟩

/-- A start places no response. -/
theorem startHead_responses (h : startHead s = .ok t) : t.responses.length ≤ s.responses.length := by
  rcases startHead_cases h with rfl | ⟨-, hheld, -, -⟩
  · exact le_refl _
  · exact hheld.responses

/-- The engine's start after a change that leaves the Forward Queue fit, whose new entries are for records before the
next: the job in flight has the number no entry has yet, and only an entry that stood can have the number after it. -/
theorem ForwardsFit.start (hu : ForwardsFit u) (hnext : u.nextRecord = s.nextRecord)
    (hnew : ∀ e ∈ u.forwardQueue, e ∈ s.forwardQueue ∨ e.record + 1 = s.nextRecord) (h : startHead u = .ok t) :
    ForwardsServed s t := by
  rcases startHead_cases h with rfl | ⟨-, hheld, hnumber, hrecord⟩
  · exact hu.served
  · have hsub : t.forwardQueue.Sublist u.forwardQueue := hheld.forwards
    refine ⟨⟨hu.distinct.distinct.sublist hsub, fun f hf e he => ?_⟩, fun e he heq => ?_⟩
    · rw [hrecord f hf]
      exact hu.next e (hsub.subset he)
    · rw [hnext] at hnumber
      refine ⟨hnumber, (hnew e (hsub.subset he)).resolve_right fun hbefore => ?_⟩
      rw [heq, hnumber] at hbefore
      bv_omega

/-- The engine's start after a held change. -/
theorem QueuesHeld.start (h : QueuesHeld s u) (ht : startHead u = .ok t) : QueuesCarried s t where
  fit hs := (h.fit hs).start ht
  forwards _ hs := (hs.of_held h).start h.next (fun _ he => .inl (h.forwards.subset he)) ht

end

/-! ### Output pixels, the end of a job and Engine Abort (R92, R94, R95) -/

section
variable {f : Flight} {s t : State}

/-- What the stages make of the next output pixel of the job in flight `f` (R92). -/
def State.nextPixel (s : State) (f : Flight) : PixelResult :=
  conditionPixel s.tableStore (fun x y => (readPixel s f.job.slot x y).toNat) f (f.produced % f.params.width)
    (f.produced / f.params.width)

/-- The state with the code of the next output pixel at its cell of the write slot (R92). -/
def State.codeWritten (s : State) (f : Flight) : State :=
  s.updOutput f.slot fun x => { x with cells := putAt f.produced (BitVec.ofNat 16 (s.nextPixel f).code) x.cells }

/-- An output pixel: its code written, its flag in the record, and the tallies advanced (R92, R107, R122, R130). -/
theorem producePixel_eq (f : Flight) (s : State) : producePixel f s =
    { (s.codeWritten f).updRecord f.record fun x =>
        { x with flags := joinFlags x.flags (pixelFlags (s.nextPixel f)) } with
      flight := some { f with
        tallies := tally f.params.format (s.nextPixel f) f.tallies, produced := f.produced + 1 } } := rfl

/-- An output pixel (R92). -/
theorem held_producePixel (hf : s.flight = some f) : QueuesHeld s (producePixel f s) := by
  have hwritten : QueuesHeld s (s.codeWritten f) :=
    ⟨fun hs => ⟨memory_wf_writeCell f.slot f.produced _ hs.memory, { hs.queues with }⟩, le_refl _, .refl _,
      fun g hg => ⟨g, hg, rfl⟩, rfl⟩
  refine (hwritten.congr (queueParts_updRecord _ f.record fun x =>
    { x with flags := joinFlags x.flags (pixelFlags (s.nextPixel f)) })).trans ?_
  rw [producePixel_eq]
  have hflight : (s.codeWritten f).flight = some f := hf
  exact ⟨fun hs => ⟨hs.memory, { hs.queues with }⟩, le_refl _, .refl _, fun g hg => ⟨f, hflight, by cases hg; rfl⟩, rfl⟩

/-- OUTPUT_PIXEL. -/
theorem exec_outputPixel_held (h : exec .outputPixel s = .next t) : QueuesHeld s t := by
  simp only [exec, execOutputPixel] at h
  split at h
  · cases h
    exact .refl s
  · next f hf =>
    split at h <;> cases h
    · exact held_producePixel hf
    · exact .refl s

/-- The job in flight gone, after a change that leaves the parts. -/
theorem held_landed_of (hp : t.queueParts = s.queueParts) (pins : List Span) :
    QueuesHeld s { t with pins := pins, flight := none } := by
  have h := QueuesHeld.of_parts hp
  exact ⟨fun hs => ⟨(h.fit hs).memory, { (h.fit hs).queues with }⟩, h.responses, h.forwards,
    fun g hg => absurd hg (Option.not_mem_none g), h.next⟩

/-- The buffer's advance (R137, R138). -/
theorem held_advanceBuffer (v : Fin 16) (n : RecordNumber) (degraded : Bool) (s : State) :
    QueuesHeld s (advanceBuffer v n degraded s) := by
  simp only [advanceBuffer]
  split
  · exact .refl s
  · split
    · refine .trans (.of_parts ?_) (held_raise ..)
      rfl
    · exact .of_parts rfl

/-- Forwarding selection: nothing joins the Forward Queue, or the job's record is offered (R146). -/
theorem selectRecord_cases (f : Flight) (mark : SlotMark) (s : State) : QueuesHeld s (selectRecord f mark s)
    ∨ ∃ u e, QueuesHeld s u ∧ e.record = f.record ∧ selectRecord f mark s = u.offer e := by
  simp only [selectRecord]
  split
  · refine .inr ⟨_, _, ?_, ?_, rfl⟩
    · exact .of_parts rfl
    · rfl
  · exact .inl (.of_parts rfl)

/-- The end of a job: nothing joins the Forward Queue, or the job's record is offered, the engine being IDLE (R94). -/
theorem endJob_cases (f : Flight) (s : State) :
    ∃ u, QueuesHeld s u ∧ u.flight = none ∧ (QueuesHeld u (endJob f s)
      ∨ ∃ e, e.record = f.record ∧ QueuesHeld (u.offer e) (endJob f s)) := by
  have hcompleted : ((completeRecord f (jobDegraded f s) s).releaseSource f.job.slot).queueParts = s.queueParts := by
    rw [queueParts_releaseSource, completeRecord, queueParts_countView, queueParts_finalise, queueParts_updRecord]
  have hlast (t : State) : QueuesHeld t
      ((t.updView f.job.view fun w => { w with lastGood := some f.record }).settle f.job.view) :=
    .of_parts ((queueParts_settle ..).trans (queueParts_updView ..))
  have hadvanced := (held_landed_of hcompleted []).trans
    (held_advanceBuffer f.job.view f.record (jobDegraded f s) _)
  have hidle {t u : State} (h : QueuesHeld t u) (ht : t.flight = none) : u.flight = none := by
    rw [Option.eq_none_iff_forall_not_mem]
    intro g hg
    obtain ⟨g', hg', -⟩ := h.flight g hg
    exact Option.not_mem_none g' (ht ▸ hg')
  simp only [endJob]
  rcases selectRecord_cases f ⟨f.slot, _⟩ _ with h | ⟨u, e, hu, he, heq⟩
  · exact ⟨_, hadvanced, hidle (held_advanceBuffer ..) rfl, .inl (h.trans (hlast _))⟩
  · rw [heq]
    exact ⟨u, hadvanced.trans hu, hidle ((held_advanceBuffer ..).trans hu) rfl, .inr ⟨e, he, hlast _⟩⟩

/-- The end of a job, before the engine's next start. -/
theorem StoresFit.endJob (hs : StoresFit s) (f : Flight) : StoresFit (endJob f s) := by
  obtain ⟨u, hu, -, h | ⟨e, -, h⟩⟩ := endJob_cases f s
  · exact h.fit (hu.fit hs)
  · exact h.fit ((hu.fit hs).offer e)

/-- The end of a job leaves the Forward Queue fit, with at most an entry for the job's record, the newest. -/
theorem ForwardsFit.endJob (hs : ForwardsFit s) (hr : RecordsSound s) (hf : s.flight = some f) :
    ForwardsFit (endJob f s) ∧ (endJob f s).nextRecord = s.nextRecord
    ∧ ∀ e ∈ (Machine.endJob f s).forwardQueue, e ∈ s.forwardQueue ∨ e.record + 1 = s.nextRecord := by
  obtain ⟨-, hnewest⟩ := hr.newest f hf
  obtain ⟨u, hu, hidle, h | ⟨e, he, h⟩⟩ := endJob_cases f s
  · exact ⟨(hs.of_held hu).of_held h, h.next.trans hu.next,
      fun x hx => .inl (hu.forwards.subset (h.forwards.subset hx))⟩
  · have hoffered : ForwardsFit (u.offer e) := by
      refine (hs.of_held hu).offer (fun x hx => ?_) (fun g hg => ?_) ?_
      · rw [he]
        exact (hs.distinct.fresh f hf x (hu.forwards.subset hx)).symm
      · exact absurd (hidle ▸ hg) (Option.not_mem_none g)
      · rw [he, hu.next, ← hnewest]
        bv_omega
    refine ⟨hoffered.of_held h, h.next.trans ((offer_nextRecord u e).trans hu.next), fun x hx => ?_⟩
    rcases mem_offer (h.forwards.subset hx) with rfl | hx
    · exact .inr (he ▸ hnewest)
    · exact .inl (hu.forwards.subset hx)

/-- JOB_END. -/
theorem exec_jobEnd_queues (h : exec .jobEnd s = .next t) : QueuesCarried s t := by
  simp only [exec, execJobEnd] at h
  split at h
  · cases h
    exact .of_parts rfl
  · next f hf =>
    split at h
    · cases h
      exact .of_parts rfl
    · have hstart := engineOutcome_next h
      refine ⟨fun hs => (hs.endJob f).start hstart, fun hr hs => ?_⟩
      obtain ⟨hended, hnext, hnew⟩ := hs.endJob hr hf
      exact hended.start hnext hnew hstart

/-- Engine Abort before the next start (R95). -/
theorem held_abortEngine (flush : Bool) (s : State) : QueuesHeld s (abortEngine flush s) := by
  have hflight : QueuesHeld s (abortFlight s) := by
    unfold abortFlight
    split
    · refine held_landed_of ?_ []
      rw [queueParts_releaseSource, queueParts_countView, queueParts_finalise]
    · exact .refl s
  refine QueuesHeld.trans ?_ (.foldl (fun t v => .of_parts (queueParts_settle t v)) _ _)
  split
  · exact hflight.trans (held_removeJobs ..)
  · exact hflight

/-- Engine Abort (R95). -/
theorem carriesQueues_engineAbort : CarriesQueues engineAbortRule := fun payload s => by
  simp only [engineAbortRule]
  split
  · exact ⟨.of_parts rfl, le_refl _⟩
  · next flush _ =>
    split
    · exact ⟨.of_parts rfl, le_refl _⟩
    · next t ht =>
      have h := held_abortEngine flush s
      exact ⟨h.start ht, (startHead_responses ht).trans h.responses⟩

/-! ### Every row -/

/-- Every row but POWER_ON_RESET carries the memories and queues. -/
theorem exec_queues {i : Instr} (hi : ∀ strap, i ≠ .powerOnReset strap) (h : exec i s = .next t) :
    QueuesCarried s t := by
  cases i with
  | powerOnReset strap => exact absurd rfl (hi strap)
  | startupSweepEnd => exact (exec_startupSweepEnd_held h).carried
  | frameStart c packet => exact (exec_frameStart_held h).carried
  | line c packet => exact (exec_line_held h).carried
  | frameEnd c packet => exact (exec_frameEnd_held h).carried
  | cameraPacketIgnored c packet =>
    cases h
    exact .of_parts rfl
  | downlinkPacket packet => exact (exec_downlinkPacket_held h).carried
  | unknownCommand => exact exec_unknownCommand_queues h
  | broadcastIgnored => exact (exec_broadcastIgnored_held h).carried
  | identify => exact leavesQueues_identify.holds.carries.row h
  | getStatus => exact leavesQueues_getStatus.holds.carries.row h
  | clearStatus => exact leavesQueues_clearStatus.holds.carries.row h
  | readCounters => exact leavesQueues_readCounters.holds.carries.row h
  | setNoticeMask => exact leavesQueues_setNoticeMask.holds.carries.row h
  | softReset =>
    exact (HoldsQueues.carries (rule := softResetRule) fun _ => held_softReset).broadcastRow
      (fun _ s => (held_softReset s).carried) h
  | setCamera => exact leavesQueues_setCamera.holds.carries.row h
  | cameraEnable => exact leavesQueues_cameraEnable.holds.carries.row h
  | setBlackLevel => exact leavesQueues_setBlackLevel.holds.carries.row h
  | writeDescriptor => exact leavesQueues_writeDescriptor.holds.carries.row h
  | readDescriptor => exact leavesQueues_readDescriptor.holds.carries.row h
  | clearAccessedDescriptor => exact leavesQueues_clearAccessed.holds.carries.row h
  | lockDescriptor => exact (leavesQueues_lock lockNext).holds.carries.row h
  | unlockDescriptor => exact (leavesQueues_lock unlockNext).holds.carries.row h
  | lockDownDescriptor => exact (leavesQueues_lock lockDownNext).holds.carries.row h
  | setProtectionWindow => exact leavesQueues_setWindow.holds.carries.row h
  | protectionLock => exact leavesQueues_protectionLock.holds.carries.row h
  | loadOpen => exact leavesQueues_loadOpen.holds.carries.row h
  | loadData => exact leavesQueues_loadData.holds.carries.row h
  | loadCommit => exact holdsQueues_loadCommit.carries.row h
  | loadCancel => exact leavesQueues_loadCancel.holds.carries.row h
  | streamOpen => exact leavesQueues_streamOpen.holds.carries.row h
  | streamData => exact holdsQueues_streamData.carries.row h
  | streamCancel => exact leavesQueues_streamCancel.holds.carries.row h
  | readTable => exact leavesQueues_readTable.holds.carries.row h
  | writeView => exact leavesQueues_writeView.holds.carries.row h
  | readView => exact leavesQueues_readView.holds.carries.row h
  | viewActivate => exact leavesQueues_viewActivate.holds.carries.row h
  | viewHold => exact leavesQueues_viewHold.holds.carries.row h
  | viewDisable => exact holdsQueues_viewDisable.carries.row h
  | engineAbort => exact carriesQueues_engineAbort.row h
  | setTimeTag =>
    exact leavesQueues_setTimeTag.holds.carries.broadcastRow
      (fun payload s => .of_parts (queueParts_setTimeTag payload s)) h
  | readRecords => exact leavesQueues_readRecords.holds.carries.row h
  | recallFrame => exact carriesQueues_recallFrame.row h
  | recallLatest => exact carriesQueues_recallLatest.row h
  | uplinkPause => exact leavesQueues_uplinkPause.holds.carries.row h
  | uplinkResume => exact leavesQueues_uplinkResume.holds.carries.row h
  | uplinkFlush => exact holdsQueues_uplinkFlush.carries.row h
  | jobStart => exact (QueuesHeld.refl s).start (engineOutcome_next h)
  | outputPixel => exact (exec_outputPixel_held h).carried
  | jobEnd => exact exec_jobEnd_queues h
  | timeTagTick =>
    cases h
    exact .of_parts rfl
  | relayByte b => exact (exec_relayByte_held h).carried
  | relayIdleTimeout => exact (exec_relayIdleTimeout_held h).carried
  | uplinkPortReady =>
    cases h
    exact (held_arbitrate s).carried

/-- A power-on reset leaves the memories and queues empty, whatever they were. -/
theorem exec_powerOnReset_queues {strap : Fin 15} (h : exec (.powerOnReset strap) s = .next t) :
    QueuesCarried s t := by
  cases h
  have hdistinct : ForwardsDistinct State.reset := forwardsDistinct_reset
  exact ⟨fun _ => ⟨memory_wf_reset, { queuesBounded_reset with }⟩,
    fun _ _ => ⟨⟨hdistinct.distinct, hdistinct.fresh⟩, fun e he => absurd he List.not_mem_nil⟩⟩

/-- Every step carries the memories and queues. -/
theorem step_queues (h : step s = .next t) : QueuesCarried s t := by
  cases hq : s.pending with
  | nil =>
    simp only [step, hq] at h
    cases h
    exact .of_parts rfl
  | cons i rest =>
    rw [step_cons hq] at h
    refine QueuesCarried.of_same (s' := { s with pending := rest }) ?_ (fun hs => hs.congr rfl) rfl rfl rfl rfl
    by_cases hi : ∃ strap, i = .powerOnReset strap
    · obtain ⟨strap, rfl⟩ := hi
      exact exec_powerOnReset_queues h
    · exact exec_queues (fun strap e => hi ⟨strap, e⟩) h

end

/-- Settles O56, row by row: each row leaves what the invariants read, keeps each collection within its places, or
offers a forward entry; a recalled record is neither in flight nor next, and the record of the job that ends is the
newest, so the entries stay one a record until the record number reaches one that waits. -/
theorem memoryAndQueuesKept : Obligations.MemoryAndQueuesKept := by
  intro s t hmemory hqueues h
  have hcarried := step_queues h
  obtain ⟨hmemory', hqueues'⟩ := hcarried.fit ⟨hmemory, hqueues⟩
  refine ⟨hmemory', hqueues', fun hr hdistinct hnext => ?_⟩
  obtain ⟨hdistinct', hwrapped⟩ := hcarried.forwards hr ⟨hdistinct, hnext⟩
  exact ⟨hdistinct', hwrapped⟩

end Sys2Proof.Machine
end

section
/-! PROOFS. The start of a job: one that ends in itself and one that runs (spec/05 R83, R84, R89, R90). -/

namespace Sys2Proof.Machine

/-! ### The record of a job that starts (R83, R140) -/

section
variable {s : State} {j : Job} {rest : List Job} {r : Record}

/-- The head job taken and its record made: whatever the record, the notices and their loss change, the job queue, the
Record List and the next number, and nothing else. -/
theorem started_only (s : State) (rest : List Job) : ∃ q k i, ∀ r, s.started rest r = { s with
    notices := q, sticky := k, interfaceCounters := i
    jobs := rest
    records := (if decide (1024 ≤ s.records.length) then s.records.drop 1 else s.records) ++ [r]
    nextRecord := s.nextRecord + 1 } := by
  simp only [State.started]
  split
  · obtain ⟨q, k, i, h⟩ := raise_only s (.recordRollover s.nextRecord)
    exact ⟨q, k, i, fun r => by rw [h]⟩
  · exact ⟨_, _, _, fun r => rfl⟩

/-- A change of the record just made is a change of nothing else: no record kept has its number. -/
theorem updRecord_started (h : Startable j rest s) (hr : r.number = s.nextRecord) (f : Record → Record) :
    (s.started rest r).updRecord s.nextRecord f = s.started rest (f r) := by
  have hkept : ∀ q ∈ (if decide (1024 ≤ s.records.length) then s.records.drop 1 else s.records),
      (if q.number = s.nextRecord then f q else q) = q := fun q hq => by
    refine if_neg (h.fresh q ?_)
    split at hq
    · exact List.mem_of_mem_drop hq
    · exact hq
  obtain ⟨q, k, i, hs⟩ := started_only s rest
  rw [hs, hs, State.updRecord]
  simp only [List.map_append, List.map_congr_left hkept, List.map_id', List.map_cons, List.map_nil, hr, if_true]

/-- The record just made finalised: its time tag is the counter's (R141). -/
theorem finalise_started (h : Startable j rest s) (hr : r.number = s.nextRecord) (x : RecordStatus) :
    (s.started rest r).finalise s.nextRecord x
      = s.started rest { r with status := x, tagFinal := some s.timeTag } := by
  have htag : (s.started rest r).timeTag = s.timeTag := by
    obtain ⟨q, k, i, hs⟩ := started_only s rest
    rw [hs]
  rw [State.finalise_eq, updRecord_started h hr, htag]

/-! ### The slot and the tables of a job that starts (R84 to R87) -/

/-- Slot numbers from 12 on name the output slots (R134). -/
theorem outputIndex_eq_some_iff {n : Nat} {x : Fin 52} : outputIndex n = some x ↔ x.val + 12 = n := by
  unfold outputIndex
  split
  · rw [below?_eq_some]
    omega
  · exact ⟨nofun, fun h => by omega⟩

/-- The chosen slot is the one the view's next job writes (R84). -/
theorem chosenSlot_eq_some_iff {w : View} {x : Fin 52} : chosenSlot w = some x ↔ w.writesNext x := by
  unfold chosenSlot View.writesNext
  cases w.params.job.scheme with
  | unbuffered => exact ⟨nofun, nofun⟩
  | single => exact outputIndex_eq_some_iff
  | double => exact outputIndex_eq_some_iff
  | ring => exact outputIndex_eq_some_iff

/-- The engine at rest starts the head job (R82). -/
theorem startHead_of_jobs_cons (hidle : s.flight = none) (hjobs : s.jobs = j :: rest) :
    startHead s = startJob j { s with jobs := rest } := by
  simp only [startHead, hidle, hjobs]

/-- JOB_START at a startable job: its record is made, and the hold of its slot decides (R82 to R84). -/
theorem exec_jobStart_startable (h : Startable j rest s) {x : Fin 52} (hx : (pick s.views j.view).writesNext x) :
    exec .jobStart s = .next (if (pick s.outputSlots x).held
      then skipJob j s.nextRecord (s.started rest (newRecord s j))
      else latchJob j s.nextRecord x (s.started rest (newRecord s j))) := by
  have hviews : (s.started rest (newRecord s j)).views = s.views
      ∧ (s.started rest (newRecord s j)).outputSlots = s.outputSlots := by
    obtain ⟨q, k, i, hs⟩ := started_only s rest
    rw [hs]
    exact ⟨rfl, rfl⟩
  obtain ⟨hv, ho⟩ := hviews
  have hchosen := chosenSlot_eq_some_iff.2 hx
  simp only [exec, execJobStart, startHead_of_jobs_cons h.idle h.head, startJob, createRecord_eq, hv, ho, hchosen]
  split <;> rfl

/-- The tables the head job selects, latched and validated (R86, R87). -/
def State.tables (s : State) (j : Job) : Latched :=
  latchTables s (pick s.views j.view).params.job j.header.level

/-- A record with the flags of those tables' validation and coverage in it (R87). -/
def State.flagged (s : State) (j : Job) (r : Record) : Record :=
  { r with
    flags := joinFlags r.flags ((s.tables j).flags (pick s.ports j.camera).width (pick s.ports j.camera).height) }

/-- The state once they are latched: the record holds their flags, and their descriptors are marked accessed. -/
def State.latched (s : State) (j : Job) (rest : List Job) : State :=
  { s.started rest (s.flagged j (newRecord s j)) with descriptors := s.accessedBy (s.tables j).selectors }

/-- A record changes alike whatever the descriptors. -/
theorem updRecord_with_descriptors (s : State) (ds : Vector Descriptor 64) (n : RecordNumber) (f : Record → Record) :
    State.updRecord { s with descriptors := ds } n f = { s.updRecord n f with descriptors := ds } := rfl

/-- What follows the latching of tables `l` into slot `x`: the mesh decides whether the stages begin (R87 to R90). -/
def meshDecides (j : Job) (n : RecordNumber) (x : Fin 52) (l : Latched) (s : State) : State :=
  match l.mesh with
  | none => faultJob j n .absent s
  | some t =>
    match meshOf t with
    | some m => beginStages j n x l t m s
    | none => faultJob j n (l.meshFailure.getD .format) s

/-- Steps 3 to 6 of a start: the tables latched, and the mesh decides (R85 to R89). -/
theorem latchJob_started (h : Startable j rest s) (x : Fin 52) :
    latchJob j s.nextRecord x (s.started rest (newRecord s j))
      = meshDecides j s.nextRecord x (s.tables j) (s.latched j rest) := by
  have hviews : (s.started rest (newRecord s j)).views = s.views
      ∧ (s.started rest (newRecord s j)).ports = s.ports
      ∧ (s.started rest (newRecord s j)).accessedBy (s.tables j).selectors = s.accessedBy (s.tables j).selectors
      ∧ latchTables (s.started rest (newRecord s j)) (pick s.views j.view).params.job j.header.level
        = s.tables j := by
    obtain ⟨q, k, i, hs⟩ := started_only s rest
    rw [hs]
    exact ⟨rfl, rfl, rfl, rfl⟩
  obtain ⟨hv, hp, ha, hl⟩ := hviews
  have hlatched : ((s.started rest (newRecord s j)).markAccessed (s.tables j).selectors).updRecord s.nextRecord
      (fun r => s.flagged j r) = s.latched j rest := by
    rw [markAccessed_eq, ha, updRecord_with_descriptors, updRecord_started h rfl, State.latched]
  simp only [latchJob, hv, hp, hl]
  simp only [State.flagged] at hlatched
  rw [hlatched]
  rfl

/-- A failed mesh leaves none to read. -/
theorem meshOf_of_failed {t : TableLatch} {x : TableFailure} (h : t.outcome = .failed x) : meshOf t = none := by
  simp [meshOf, h]

/-- A job whose mesh failed faults with the mesh's failure (R87, R89). -/
theorem latchJob_faults (h : Startable j rest s) (x : Fin 52) {failure : TableFailure}
    (hf : (s.tables j).meshFailure = some failure) :
    latchJob j s.nextRecord x (s.started rest (newRecord s j))
      = faultJob j s.nextRecord failure (s.latched j rest) := by
  rw [latchJob_started h, meshDecides, hf]
  unfold Latched.meshFailure at hf
  cases hm : (s.tables j).mesh with
  | none =>
    rw [hm] at hf
    cases hf
    rfl
  | some t =>
    rw [hm] at hf
    cases ho : t.outcome with
    | usable header => simp [ho] at hf
    | failed y =>
      simp only [meshOf_of_failed ho]
      rfl

/-! ### Jobs that end in their own start (R84, R89) -/

/-- With no job in flight a view leaves its waiting state when no job is queued for it (R71). -/
theorem settle_idle (hidle : s.flight = none) (v : Fin 16) : s.settle v = { s with
    views := upd s.views v fun w => if s.jobs.all fun k => k.view != v then w.leaveWaiting else w } := by
  have hnone : s.outstanding v = 0 ↔ (s.jobs.all fun k => k.view != v) = true := by
    rw [outstanding_eq_zero_iff, hidle]
    simp
  rw [settle_eq]
  simp only [hnone]
  split
  · rfl
  · rw [upd_self _ _ _ rfl]

/-- With no job in flight, a source reference released and a view settled. -/
theorem release_settle_idle (hidle : s.flight = none) (i : Fin 12) (v : Fin 16) : (s.releaseSource i).settle v =
    { s with
      sourceSlots := upd s.sourceSlots i fun y => { y with refs := y.refs - 1 }
      views := upd s.views v fun w => if s.jobs.all fun k => k.view != v then w.leaveWaiting else w } :=
  settle_idle (s := s.releaseSource i) hidle v

/-- A notice is raised alike whatever the descriptors and the views (R165). -/
theorem raise_with_descriptors_views (s : State) (ds : Vector Descriptor 64) (vs : Vector View 16) (n : Notice) :
    State.raise { s with descriptors := ds, views := vs } n
      = { s.raise n with descriptors := ds, views := vs } := by
  simp only [State.raise]
  split
  · split <;> rfl
  · rfl

/-- A job skipped: its record, its counter, its reference, and R71 (R84). -/
theorem skipJob_started (h : Startable j rest s) : skipJob j s.nextRecord (s.started rest (newRecord s j)) =
    { s.started rest { newRecord s j with
        status := .skipped, flags := joinFlag (newRecord s j).flags .slotHeld, tagFinal := some s.timeTag } with
      sourceSlots := upd s.sourceSlots j.slot fun y => { y with refs := y.refs - 1 }
      views := upd s.views j.view fun w =>
        let u := { w with counters := { w.counters with slotHeldSkips := satInc w.counters.slotHeldSkips } }
        if rest.all fun k => k.view != j.view then u.leaveWaiting else u } := by
  rw [skipJob, updRecord_started h rfl, finalise_started h rfl]
  obtain ⟨q, k, i, hs⟩ := started_only s rest
  rw [hs, release_settle_idle]
  · simp only [State.countView, State.updView, upd_upd]
    rfl
  · exact h.idle

/-- A job that faults: its record, its counter, VIEW_FAULT with its notice, its reference, and R71 (R89). -/
theorem faultJob_latched (h : Startable j rest s) (x : TableFailure) :
    let u := s.started rest { s.flagged j (newRecord s j) with status := .fault, tagFinal := some s.timeTag }
    faultJob j s.nextRecord x (s.latched j rest) =
      { State.raise { u with sticky := withBit u.sticky StickyFlag.viewFault.bit }
          (.viewFault j.view s.nextRecord x) with
        sourceSlots := upd s.sourceSlots j.slot fun y => { y with refs := y.refs - 1 }
        descriptors := s.accessedBy (s.tables j).selectors
        views := upd s.views j.view fun w =>
          let u := { w with counters := { w.counters with faulted := satInc w.counters.faulted } }
          if rest.all fun k => k.view != j.view then u.leaveWaiting else u } := by
  intro u
  have hfinal : (s.latched j rest).finalise s.nextRecord .fault
      = { u with descriptors := s.accessedBy (s.tables j).selectors } := by
    have hrecord := finalise_started h (r := s.flagged j (newRecord s j)) rfl .fault
    rw [State.latched]
    exact congrArg (fun t : State => { t with descriptors := s.accessedBy (s.tables j).selectors }) hrecord
  have hu : u.views = s.views ∧ u.sourceSlots = s.sourceSlots ∧ u.flight = none ∧ u.jobs = rest := by
    obtain ⟨q, k, i, hs⟩ := started_only s rest
    simp only [u, hs]
    exact ⟨trivial, trivial, h.idle, trivial⟩
  obtain ⟨hviews, hsources, hflight, hjobs⟩ := hu
  have hcounted : ((({ u with descriptors := s.accessedBy (s.tables j).selectors } : State).countView j.view fun k =>
      { k with faulted := satInc k.faulted }).setSticky .viewFault)
      = { ({ u with sticky := withBit u.sticky StickyFlag.viewFault.bit } : State) with
          descriptors := s.accessedBy (s.tables j).selectors
          views := upd s.views j.view fun w =>
            { w with counters := { w.counters with faulted := satInc w.counters.faulted } } } := by
    rw [← hviews]
    rfl
  obtain ⟨q, k, i, hr⟩ := raise_only { u with sticky := withBit u.sticky StickyFlag.viewFault.bit }
    (.viewFault j.view s.nextRecord x)
  simp only [faultJob]
  rw [hfinal, hcounted, raise_with_descriptors_views, hr, release_settle_idle]
  · simp only [hsources, hjobs, upd_upd]
  · exact hflight

/-- Settles O34: the record is made, and the slot's hold or the mesh's failure ends the job in its own start. -/
theorem jobStartEnds : Obligations.JobStartEnds := by
  intro s j rest x h hx p port l r last sources
  rw [exec_jobStart_startable h hx]
  refine ⟨fun hheld => ?_, fun hfree failure hf => ?_⟩
  · rw [if_pos hheld, skipJob_started h]
  · rw [if_neg (by rw [hfree]; exact Bool.false_ne_true), latchJob_faults h x hf]
    exact congrArg _ (faultJob_latched h failure)

/-! ### A job whose stages begin (R90) -/

/-- A job whose mesh is usable goes on to its stages (R88). -/
theorem latchJob_begins (h : Startable j rest s) (x : Fin 52) {t : TableLatch} {m : Mesh}
    (ht : (s.tables j).mesh = some t) (hm : meshOf t = some m) :
    latchJob j s.nextRecord x (s.started rest (newRecord s j))
      = beginStages j s.nextRecord x (s.tables j) t m (s.latched j rest) := by
  rw [latchJob_started h, meshDecides, ht]
  simp only [hm]

/-- The last step of a start: the slot's new generation goes into the record, the usable tables are pinned, and the
engine holds what the job latched (R90, R112, R115, R124, R129). -/
theorem beginStages_latched (h : Startable j rest s) (x : Fin 52) (l : Latched) (t : TableLatch) (m : Mesh) :
    let p := (pick s.views j.view).params.job
    let port := pick s.ports j.camera
    let scale := exposureScale p.referenceExposure.toNat j.header.exposure.toNat
    let r := s.flagged j (newRecord s j)
    beginStages j s.nextRecord x l t m (s.latched j rest) =
      { s.started rest { r with
          mark := some ⟨x, (pick s.outputSlots x).generation + 1⟩
          flags := if scale.2 then joinFlag r.flags .exposureClamped else r.flags } with
        outputSlots := upd s.outputSlots x fun y => { y with generation := y.generation + 1 }
        descriptors := s.accessedBy (s.tables j).selectors
        pins := s.pins ++ l.pins
        flight := some
          { job := j
            record := s.nextRecord
            slot := x
            params := p
            black := port.black
            width := port.width
            height := port.height
            gains := l.gains
            meshTable := t
            toneTable := l.tone
            mesh := m
            gainMode := gainModeOf j.header.level l.gains
            exposureScale := scale.1
            toneMode := toneModeOf l.tone
            tallies := freshTallies p.histogram
            produced := 0 } } := by
  intro p port scale r
  have hrecord := updRecord_started h (r := r) rfl fun y => { y with
    mark := some ⟨x, (pick s.outputSlots x).generation + 1⟩
    flags := if scale.2 then joinFlag y.flags .exposureClamped else y.flags }
  obtain ⟨q, k, i, hs⟩ := started_only s rest
  rw [hs, hs] at hrecord
  have hrecords := congrArg State.records hrecord
  simp only [State.updRecord] at hrecords
  simp only [beginStages, State.latched, State.updOutput, State.updRecord, hs, pick_upd_same]
  rw [hrecords]

/-- Settles O35: the slot is free and the mesh is usable, so the start goes through to its stages. -/
theorem jobStartRuns : Obligations.JobStartRuns := by
  intro s j rest x mt m h hx hfree p port l scale flags ht hm
  have hlatch : latchJob j s.nextRecord x (s.started rest (newRecord s j))
      = beginStages j s.nextRecord x (s.tables j) mt m (s.latched j rest) := latchJob_begins h x ht hm
  rw [exec_jobStart_startable h hx, if_neg (by rw [hfree]; exact Bool.false_ne_true), hlatch, beginStages_latched h]
  rfl

end

end Sys2Proof.Machine
end

section
/-! PROOFS. Output pixels (spec/05 R92). -/

namespace Sys2Proof.Machine

/-- The write slot reads the code just written at its cell, and every other cell of every slot as before. -/
theorem readCell_producePixel (f : Flight) (s : State) (x : Fin 52) (c : Nat) :
    readCell (producePixel f s) x c
      = if x = f.slot ∧ c = f.produced then BitVec.ofNat 16 (s.nextPixel f).code else readCell s x c :=
  readCell_writeCell s f.slot x f.produced c _

/-- An output pixel writes cells only: each slot keeps its generation and its hold. -/
theorem slotMarks_producePixel (f : Flight) (s : State) (x : Fin 52) :
    (pick (producePixel f s).outputSlots x).generation = (pick s.outputSlots x).generation
      ∧ (pick (producePixel f s).outputSlots x).held = (pick s.outputSlots x).held := by
  rw [producePixel_eq]
  simp only [State.codeWritten, State.updOutput, State.updRecord, pick_upd]
  split <;> exact ⟨rfl, rfl⟩

/-- The flag an output pixel sets in its record, if any (R107, R122). -/
theorem joinFlags_pixelFlags (x : BitVec 15) (result : PixelResult) :
    joinFlags x (pixelFlags result) = match result with
      | .filled _ => withBit x RecordFlag.outOfField.bit
      | .conditioned _ true => withBit x RecordFlag.saturated.bit
      | .conditioned _ false => x := by
  cases result with
  | filled code => rfl
  | conditioned code saturated => cases saturated <;> rfl

/-- An output pixel in raster order stands in the latched region (R92). -/
theorem raster_position {w h n : Nat} (hn : n < w * h) : n / w * w + n % w = n ∧ n % w < w ∧ n / w < h :=
  ⟨Nat.div_add_mod' n w, Nat.mod_lt n (Nat.pos_of_lt_mul_right hn), Nat.div_lt_of_lt_mul hn⟩

/-- OUTPUT_PIXEL with a pixel left writes it (R92). -/
theorem exec_outputPixel_left {s : State} {f : Flight} (hf : s.flight = some f) (hleft : f.produced < f.pixels) :
    exec .outputPixel s = .next (producePixel f s) := by
  simp only [exec, execOutputPixel, hf, if_pos hleft]

/-- Settles O38: what an output pixel leaves, field by field. -/
theorem outputPixelWritten : Obligations.OutputPixelWritten := by
  intro s f hf hleft u v result
  obtain ⟨hcell, hu, hv⟩ := raster_position hleft
  refine ⟨producePixel f s, exec_outputPixel_left hf hleft, hcell, hu, hv, ?_, fun x c hother => ?_,
    slotMarks_producePixel f s, ?_, ?_⟩
  · rw [readCell_producePixel, hcell, if_pos ⟨rfl, rfl⟩]
    rfl
  · rw [readCell_producePixel, if_neg (not_and_or.2 hother)]
  · rw [producePixel_eq]
    refine List.map_congr_left fun r _ => ?_
    split
    · exact congrArg (fun x => { r with flags := x }) (joinFlags_pixelFlags r.flags result)
    · rfl
  · rw [producePixel_eq]
    rfl

end Sys2Proof.Machine
end

section
/-! PROOFS. The end of a job (spec/05 R93, R94, R132). -/

namespace Sys2Proof.Machine

/-! ### The job's last event (R94) -/

section
variable {s : State} {f : Flight} {r : Record}

/-- The state once the job in flight is finalised and counted and its holdings released: steps 1 and 2 of R94. -/
def State.finished (s : State) (f : Flight) (degraded : Bool) : State := { s with
  records := s.records.map fun q =>
    if q.number = f.record then
      { q with
        status := if degraded then .degraded else .complete
        tagFinal := some s.timeTag
        statistics := some ⟨meanCode f.tallies, f.tallies.saturated, f.tallies.outOfField⟩
        histogram := f.tallies.bins }
    else q
  views := upd s.views f.job.view fun w =>
    { w with counters :=
        if degraded then { w.counters with degraded := satInc w.counters.degraded }
        else { w.counters with completed := satInc w.counters.completed } }
  sourceSlots := upd s.sourceSlots f.job.slot fun y => { y with refs := y.refs - 1 }
  pins := []
  flight := none }

/-- Two changes of one record that keep its number are one change. -/
theorem updRecord_updRecord (s : State) (n : RecordNumber) (g h : Record → Record)
    (hnumber : ∀ q, (g q).number = q.number) :
    (s.updRecord n g).updRecord n h = s.updRecord n fun q => h (g q) := by
  simp only [State.updRecord, List.map_map]
  congr 1
  refine List.map_congr_left fun q _ => ?_
  simp only [Function.comp_apply]
  by_cases hq : q.number = n
  · rw [if_pos hq, if_pos ((hnumber q).trans hq), if_pos hq]
  · rw [if_neg hq, if_neg hq, if_neg hq]

/-- Steps 1 and 2 of a job's end (R94, R132). -/
theorem completeRecord_released (f : Flight) (degraded : Bool) (s : State) :
    { (completeRecord f degraded s).releaseSource f.job.slot with pins := [], flight := none }
      = s.finished f degraded := by
  simp only [completeRecord, State.finalise_eq]
  rw [updRecord_updRecord]
  · rfl
  · exact fun _ => rfl

/-- A job's end is degraded when its record holds a degrading flag (R93). -/
theorem jobDegraded_of_findRecord (hr : s.findRecord f.record = some r) :
    jobDegraded f s = isDegraded r.flags := by
  simp only [jobDegraded, hr]

/-- The buffer's advance and the selection leave the slots, the queue and the engine (R137, R147). -/
theorem slotParts_afterAdvance (v : Fin 16) (n : RecordNumber) (degraded : Bool) (mark : SlotMark) :
    (selectRecord f mark (advanceBuffer v n degraded s)).slotParts = s.slotParts := by
  rw [slotParts_selectRecord, slotParts_advanceBuffer]

/-- The end of a job, step by step (R94). -/
theorem endJob_eq (hr : s.findRecord f.record = some r) :
    let degraded := isDegraded r.flags
    let t := selectRecord f ⟨f.slot, (pick s.outputSlots f.slot).generation⟩
      (advanceBuffer f.job.view f.record degraded (s.finished f degraded))
    endJob f s = { t with
      views := upd t.views f.job.view fun w =>
        let y := { w with lastGood := some f.record }
        if s.jobs.all (fun k => k.view != f.job.view) then y.leaveWaiting else y } := by
  intro degraded t
  have hparts : t.slotParts = (s.finished f degraded).slotParts := slotParts_afterAdvance ..
  have hjobs : t.jobs = s.jobs := congrArg SlotParts.jobs hparts
  have hflight : t.flight = none := congrArg SlotParts.flight hparts
  have hslots : (advanceBuffer f.job.view f.record degraded (s.finished f degraded)).outputSlots = s.outputSlots :=
    congrArg SlotParts.outputs (slotParts_advanceBuffer ..)
  have hend : endJob f s = (t.updView f.job.view fun w => { w with lastGood := some f.record }).settle f.job.view := by
    simp only [endJob, jobDegraded_of_findRecord hr]
    rw [completeRecord_released, hslots]
  rw [hend, settle_idle]
  · simp only [State.updView, upd_upd, hjobs]
  · exact hflight

/-- JOB_END with no pixel left ends the job and starts the next (R94; log 3). -/
theorem exec_jobEnd_last (hf : s.flight = some f) (hdone : f.pixels ≤ f.produced) :
    exec .jobEnd s = engineOutcome (startHead (endJob f s)) := by
  simp only [exec, execJobEnd, hf, if_neg (not_lt.2 hdone)]

/-- Nothing starts with an empty queue (R82). -/
theorem startHead_of_jobs_nil (hjobs : s.jobs = []) : startHead s = .ok s := by
  unfold startHead
  rw [hjobs]
  cases s.flight <;> rfl

/-- Nothing starts while a job is in flight (R82). -/
theorem startHead_of_flight (hf : s.flight = some f) : startHead s = .ok s := by
  simp only [startHead, hf]

/-- With no job in flight the engine's events do nothing, but for a start with a job in the queue (log 4). -/
theorem exec_engine_idle (hidle : s.flight = none) : exec .jobEnd s = .next s ∧ exec .outputPixel s = .next s
    ∧ (s.jobs = [] → exec .jobStart s = .next s) := by
  refine ⟨?_, ?_, fun hjobs => ?_⟩
  · simp only [exec, execJobEnd, hidle]
  · simp only [exec, execOutputPixel, hidle]
  · simp only [exec, execJobStart, startHead_of_jobs_nil hjobs, engineOutcome]

/-- With a job in flight no other starts; it ends after its last pixel only, and then has no pixel left (log 4). -/
theorem exec_engine_busy (hf : s.flight = some f) : exec .jobStart s = .next s
    ∧ (f.produced < f.pixels → exec .jobEnd s = .next s)
    ∧ (f.pixels ≤ f.produced → exec .outputPixel s = .next s) := by
  refine ⟨?_, fun hleft => ?_, fun hdone => ?_⟩
  · simp only [exec, execJobStart, startHead_of_flight hf, engineOutcome]
  · simp only [exec, execJobEnd, hf, if_pos hleft]
  · simp only [exec, execOutputPixel, hf, if_neg (not_lt.2 hdone)]

/-- Settles O39: the end of the job in flight, step by step, and the engine's events out of turn. -/
theorem jobEnds : Obligations.JobEnds := by
  refine ⟨fun s f r hf hdone hr => ?_, fun s hidle => exec_engine_idle hidle, fun s f hf => exec_engine_busy hf⟩
  intro degraded n mean s1 s2 s3 ended
  have hend : endJob f s = ended := endJob_eq hr
  have hexec : exec .jobEnd s = exec .jobStart ended := by
    rw [exec_jobEnd_last hf hdone, hend]
    rfl
  have hjobs : ended.jobs = s.jobs :=
    congrArg SlotParts.jobs (slotParts_afterAdvance (s := s1) (f := f) f.job.view f.record degraded _)
  refine ⟨hexec, fun hnil => ?_⟩
  rw [hexec]
  simp only [exec, execJobStart, startHead_of_jobs_nil (hjobs.trans hnil), engineOutcome]

end

end Sys2Proof.Machine
end

section
/-! PROOFS. Engine Abort (spec/05 R95). -/

namespace Sys2Proof.Machine

/-! ### A job's start beside a response (R82, R163) -/

section
variable (s : State) (p : Packet) (status : Status) (data : List Byte)

/-- A notice is raised alike before and after a response. -/
theorem raise_respond (n : Notice) : (s.respond p status data).raise n = (s.raise n).respond p status data := by
  simp only [State.raise, apply_ite (State.respond · p status data)]
  rfl

/-- A view settles alike before and after a response. -/
theorem settle_respond (v : Fin 16) : (s.respond p status data).settle v = (s.settle v).respond p status data := by
  rw [settle_eq, settle_eq]
  rfl

/-- A record is created alike before and after a response. -/
theorem createRecord_respond (j : Job) :
    createRecord j (s.respond p status data) = (createRecord j s).respond p status data := by
  simp only [createRecord, apply_ite (State.respond · p status data), ← raise_respond]
  rfl

/-- A record changes alike before and after a response. -/
theorem updRecord_respond (n : RecordNumber) (f : Record → Record) :
    (s.respond p status data).updRecord n f = (s.updRecord n f).respond p status data := rfl

/-- A record is finalised alike before and after a response. -/
theorem finalise_respond (n : RecordNumber) (x : RecordStatus) :
    (s.respond p status data).finalise n x = (s.finalise n x).respond p status data := rfl

/-- A view counts alike before and after a response. -/
theorem countView_respond (v : Fin 16) (f : ViewCounters → ViewCounters) :
    (s.respond p status data).countView v f = (s.countView v f).respond p status data := rfl

/-- A sticky flag is set alike before and after a response. -/
theorem setSticky_respond (x : StickyFlag) :
    (s.respond p status data).setSticky x = (s.setSticky x).respond p status data := rfl

/-- A source reference is released alike before and after a response. -/
theorem releaseSource_respond (i : Fin 12) :
    (s.respond p status data).releaseSource i = (s.releaseSource i).respond p status data := rfl

/-- A job is skipped alike before and after a response. -/
theorem skipJob_respond (j : Job) (n : RecordNumber) :
    skipJob j n (s.respond p status data) = (skipJob j n s).respond p status data := by
  simp only [skipJob, updRecord_respond, finalise_respond, countView_respond, releaseSource_respond, settle_respond]

/-- A job faults alike before and after a response. -/
theorem faultJob_respond (j : Job) (n : RecordNumber) (x : TableFailure) :
    faultJob j n x (s.respond p status data) = (faultJob j n x s).respond p status data := by
  simp only [faultJob, finalise_respond, countView_respond, setSticky_respond, raise_respond, releaseSource_respond,
    settle_respond]

/-- Descriptors are marked accessed alike before and after a response. -/
theorem markAccessed_respond (ds : List (Fin 64)) :
    (s.respond p status data).markAccessed ds = (s.markAccessed ds).respond p status data := by
  rw [markAccessed_eq, markAccessed_eq]
  rfl

/-- The mesh decides alike before and after a response. -/
theorem meshDecides_respond (j : Job) (n : RecordNumber) (x : Fin 52) (l : Latched) :
    meshDecides j n x l (s.respond p status data) = (meshDecides j n x l s).respond p status data := by
  unfold meshDecides
  cases l.mesh with
  | none => exact faultJob_respond ..
  | some t =>
    dsimp only
    cases meshOf t with
    | none => exact faultJob_respond ..
    | some m => rfl

/-- The tables of a job latched, their flags in its record and their descriptors marked, the mesh decides. -/
theorem latchJob_eq (j : Job) (n : RecordNumber) (x : Fin 52) :
    let l := latchTables s (pick s.views j.view).params.job j.header.level
    latchJob j n x s = meshDecides j n x l ((s.markAccessed l.selectors).updRecord n fun r =>
      { r with flags := joinFlags r.flags (l.flags (pick s.ports j.camera).width (pick s.ports j.camera).height) }) :=
  rfl

/-- The tables of a job are latched, and it goes on, alike before and after a response. -/
theorem latchJob_respond (j : Job) (n : RecordNumber) (x : Fin 52) :
    latchJob j n x (s.respond p status data) = (latchJob j n x s).respond p status data := by
  rw [latchJob_eq, latchJob_eq, ← meshDecides_respond, ← updRecord_respond, ← markAccessed_respond]
  rfl

/-- A job starts alike before and after a response. -/
theorem startJob_respond (j : Job) :
    startJob j (s.respond p status data) = (startJob j s).map fun t => t.respond p status data := by
  simp only [startJob, createRecord_respond, State.respond_views, State.respond_outputSlots, State.respond_nextRecord]
  cases chosenSlot (pick (createRecord j s).views j.view) with
  | none => rfl
  | some x =>
    dsimp only
    cases (pick (createRecord j s).outputSlots x).held with
    | true => exact congrArg Except.ok (skipJob_respond ..)
    | false => exact congrArg Except.ok (latchJob_respond ..)

/-- The head job starts alike before and after a response. -/
theorem startHead_respond :
    startHead (s.respond p status data) = (startHead s).map fun t => t.respond p status data := by
  cases hf : s.flight with
  | some f =>
    rw [startHead_of_flight (s := s) hf, startHead_of_flight (s := s.respond p status data) hf]
    rfl
  | none =>
    cases hj : s.jobs with
    | nil =>
      rw [startHead_of_jobs_nil (s := s) hj, startHead_of_jobs_nil (s := s.respond p status data) hj]
      rfl
    | cons j rest =>
      rw [startHead_of_jobs_cons (s := s) hf hj, startHead_of_jobs_cons (s := s.respond p status data) hf hj]
      exact startJob_respond { s with jobs := rest } p status data j

end

/-! ### What an abort leaves (R71, R95) -/

section
variable {s : State}

/-- A table of a vector's own elements is the vector. -/
theorem tabulate_eq {α : Type} {n : Nat} {f : Fin n → α} {v : Vector α n} (h : ∀ i, f i = pick v i) : tabulate f = v :=
  pick_ext fun i => (pick_tabulate f i).trans (h i)

/-- The state once the job in flight, if any, is stopped: its record is aborted and counted, and its pins, its write
slot and its source reference are released (R95). -/
def State.stopped (s : State) : State := { s with
  records := s.records.map fun r =>
    if s.flight.toList.any (fun f => f.record == r.number) then
      { r with status := .aborted, tagFinal := some s.timeTag }
    else r
  pins := if s.flight.toList.isEmpty then s.pins else []
  flight := none
  sourceSlots := tabulate fun i =>
    let x := pick s.sourceSlots i
    { x with refs := x.refs - s.flight.toList.countP fun f => f.job.slot == i }
  views := tabulate fun v =>
    let w := pick s.views v
    { w with counters := { w.counters with
      aborted := Nat.repeat satInc (s.flight.toList.countP fun f => f.job.view == v) w.counters.aborted } } }

/-- With no job in flight there is none to stop. -/
theorem stopped_idle (hidle : s.flight = none) : s.stopped = s := by
  have hrecords : s.stopped.records = s.records := by
    simp only [State.stopped, hidle, Option.toList_none, List.any_nil, Bool.false_eq_true, if_false, List.map_id']
  have hpins : s.stopped.pins = s.pins := by
    simp only [State.stopped, hidle, Option.toList_none, List.isEmpty_nil, if_true]
  have hsources : s.stopped.sourceSlots = s.sourceSlots := tabulate_eq fun i => by rw [hidle]; rfl
  have hviews : s.stopped.views = s.views := tabulate_eq fun v => by rw [hidle]; rfl
  calc s.stopped = { s with
        records := s.stopped.records, pins := s.stopped.pins, flight := none
        sourceSlots := s.stopped.sourceSlots, views := s.stopped.views } := rfl
    _ = s := by rw [hrecords, hpins, hsources, hviews, ← hidle]

/-- The job in flight stopped where it stands (R95). -/
theorem abortJob_eq {f : Flight} (hf : s.flight = some f) : abortJob f s = s.stopped := by
  have hrecords : (abortJob f s).records = s.stopped.records := List.map_congr_left fun r _ => by
    simp only [hf, Option.toList_some, List.any_cons, List.any_nil, Bool.or_false, beq_iff_eq]
    simp only [eq_comm (a := f.record)]
  have hpins : [] = s.stopped.pins := by
    simp only [State.stopped, hf, Option.toList_some, List.isEmpty_cons, Bool.false_eq_true, if_false]
  have hsources : (abortJob f s).sourceSlots = s.stopped.sourceSlots := pick_ext fun i => by
    simp only [abortJob, State.releaseSource, State.updSource, pick_upd, State.stopped, pick_tabulate, hf,
      Option.toList_some, List.countP_singleton, beq_iff_eq, eq_comm (b := i)]
    split <;> rfl
  have hviews : (abortJob f s).views = s.stopped.views := pick_ext fun v => by
    simp only [abortJob, State.releaseSource, State.updSource, State.countView, State.updView, pick_upd, State.stopped,
      pick_tabulate, hf, Option.toList_some, List.countP_singleton, beq_iff_eq, eq_comm (b := v)]
    split <;> rfl
  calc abortJob f s = { s with
        records := (abortJob f s).records, pins := [], flight := none
        sourceSlots := (abortJob f s).sourceSlots, views := (abortJob f s).views } := rfl
    _ = s.stopped := by rw [hrecords, hpins, hsources, hviews]; rfl

/-- The job in flight, if any, stopped (R95). -/
theorem abortFlight_eq (s : State) : abortFlight s = s.stopped := by
  unfold abortFlight
  split
  · next f hf => exact abortJob_eq hf
  · next hidle => exact (stopped_idle hidle).symm

/-- The jobs an Engine Abort removes from the queue (R95). -/
def State.flushed (s : State) (flush : Bool) : List Job := if flush then s.jobs else []

/-- The removals of an Engine Abort (R95). -/
theorem flush_eq (flush : Bool) (s : State) : (if flush then s.removeJobs fun _ => true else s) = { s with
    jobs := if flush then [] else s.jobs
    sourceSlots := tabulate fun i =>
      let x := pick s.sourceSlots i
      { x with refs := x.refs - (s.flushed flush).countP fun j => j.slot == i }
    views := tabulate fun v =>
      let w := pick s.views v
      { w with counters := { w.counters with
        cancelled := Nat.repeat satInc ((s.flushed flush).countP fun j => j.view == v) w.counters.cancelled } } } := by
  have hremoved : (if flush then s.removeJobs fun _ => true else s)
      = (s.flushed flush).foldl State.cancelJob { s with jobs := if flush then [] else s.jobs } := by
    cases flush with
    | false => rfl
    | true => simp [State.flushed, State.removeJobs]
  rw [hremoved, foldl_cancelJob]

/-- With no job in flight, each view of a list without a queued job leaves its waiting state (R71). -/
theorem foldl_settle_idle (hidle : s.flight = none) (vs : List (Fin 16)) : vs.foldl State.settle s = { s with
    views := tabulate fun v =>
      let w := pick s.views v
      if vs.contains v && s.jobs.all fun k => k.view != v then w.leaveWaiting else w } := by
  induction vs generalizing s with
  | nil =>
    have hviews : (tabulate fun v => pick s.views v) = s.views := tabulate_eq fun _ => rfl
    simp only [List.foldl_nil, List.contains_nil, Bool.false_and, Bool.false_eq_true, if_false, hviews]
  | cons v vs ih =>
    rw [List.foldl_cons, settle_idle hidle, ih]
    · refine congrArg (fun vs => { s with views := vs }) (pick_ext fun i => ?_)
      simp only [pick_tabulate, pick_upd, List.contains_cons]
      by_cases hi : i = v
      · subst hi
        cases s.jobs.all fun k => k.view != i <;> simp [leaveWaiting_idem]
      · simp [hi]
    · exact hidle

/-- The state an Engine Abort leaves before the engine's next start: the job in flight stopped, with flush every
queued job removed, and R71 for each view that lost a job (R95). -/
def State.engineAborted (s : State) (flush : Bool) : State :=
  let stopped := s.flight.toList
  let gone := s.flushed flush
  let lost := stopped.map (fun f => f.job.view) ++ gone.map fun j => j.view
  { s.stopped with
    jobs := if flush then [] else s.jobs
    sourceSlots := tabulate fun i =>
      let x := pick s.sourceSlots i
      { x with refs :=
          x.refs - (stopped.countP (fun f => f.job.slot == i) + gone.countP fun j => j.slot == i) }
    views := tabulate fun v =>
      let w := pick s.views v
      let k := { w with counters := { w.counters with
        aborted := Nat.repeat satInc (stopped.countP fun f => f.job.view == v) w.counters.aborted
        cancelled := Nat.repeat satInc (gone.countP fun j => j.view == v) w.counters.cancelled } }
      if lost.contains v && (flush || s.jobs.all fun j => j.view != v) then k.leaveWaiting else k }

/-- An Engine Abort's effect before the engine's next start (R95). -/
theorem abortEngine_eq (flush : Bool) (s : State) : abortEngine flush s = s.engineAborted flush := by
  have hlost : abortedViews flush s
      = s.flight.toList.map (fun f => f.job.view) ++ (s.flushed flush).map fun j => j.view := by
    cases flush <;> rfl
  have hjobs : ∀ v : Fin 16, ((if flush then [] else s.jobs).all fun k => k.view != v)
      = (flush || s.jobs.all fun j => j.view != v) := fun v => by
    cases flush <;> rfl
  simp only [abortEngine, abortFlight_eq, flush_eq]
  rw [foldl_settle_idle, hlost]
  · simp only [State.engineAborted, State.stopped, State.flushed, pick_tabulate, Nat.sub_sub, hjobs]
    rfl
  · rfl

/-- ENGINE_ABORT by its own rule: the abort answered, and then the engine's next start (R95; log 3). -/
theorem exec_engineAbort {p : Packet} {rest : List Packet} {flush : Bool} (h : Started .engineAbort p rest s)
    (hr : Ready s) (hp : p.payload = [flagByte flush]) :
    exec .engineAbort s = exec .jobStart (State.respond { s.engineAborted flush with commandBuffer := rest } p .ok
      (optBytes 4 (s.flight.map fun f => f.record.toNat) ++ leBytes 1 (s.flushed flush).length)) := by
  have hlength : Command.lengthFits .engineAbort p.payload = true := by rw [hp]; rfl
  have hswitch : switch? (num p.payload 0 1) = some flush := by
    rw [hp]
    cases flush <;> rfl
  have hgone : (if flush then s.jobs.length else 0) = (s.flushed flush).length := by cases flush <;> rfl
  have heffect : abortEngine flush { s with commandBuffer := rest }
      = { s.engineAborted flush with commandBuffer := rest } := abortEngine_eq flush _
  simp only [exec, execEngineAbort, execJobStart, runCommand_ready h hr ⟨nofun, nofun⟩ hlength, engineAbortRule,
    hswitch, heffect, hgone, startHead_respond]
  cases startHead { s.engineAborted flush with commandBuffer := rest } <;> rfl

end

/-- Settles O40: the abort's effect is the one stated, and the next start does nothing with an empty queue. -/
theorem engineAborts : Obligations.EngineAborts := by
  intro s p rest flush h hr hp gone stopped lost aborted
  have hexec : exec .engineAbort s = exec .jobStart aborted := exec_engineAbort h hr hp
  refine ⟨hexec, fun hnone => ?_⟩
  have hjobs : aborted.jobs = [] := by
    rcases hnone with rfl | hnil
    · rfl
    · cases flush with
      | true => rfl
      | false => exact hnil
  rw [hexec]
  simp only [exec, execJobStart, startHead_of_jobs_nil hjobs, engineOutcome]

end Sys2Proof.Machine
end

section
/-! PROOFS. Locate and sample (spec/06 R100 to R105, R108 to R110). -/

namespace Sys2Proof.Machine

/-! ### Locate (R100 to R105) -/

/-- A mesh node: the low half of its word, then the high half, both signed (R101). -/
theorem meshNode_eq (store : List (Nat × Word)) (m : Mesh) (i j : Nat) :
    meshNode store m i j = (((storeRead store (m.base + 1 + j * m.mw + i)).setWidth 16).toInt,
      ((storeRead store (m.base + 1 + j * m.mw + i) >>> 16).setWidth 16).toInt) := rfl

/-- The rounded bilinear mean in the terms of R102: both of its divisions are floor divisions, since what they divide
by is not negative. -/
theorem bilinear_eq_fdiv (s a b n00 n10 n01 n11 : Int) :
    bilinear s a b n00 n10 n01 n11 = Int.fdiv
      ((n00 * (s - a) + n10 * a) * (s - b) + (n01 * (s - a) + n11 * a) * b + Int.fdiv (s * s) 2) (s * s) := by
  rw [bilinear, Int.fdiv_eq_ediv_of_nonneg _ (mul_self_nonneg s), Int.fdiv_eq_ediv_of_nonneg _ (by decide)]

/-- The in-field test as a proposition (R105). -/
theorem inField_iff (width height : Nat) (x y : Int) : inField width height (x, y) = true ↔
    0 ≤ x ∧ x ≤ ((width : Int) - 1) * 16 ∧ 0 ≤ y ∧ y ≤ ((height : Int) - 1) * 16 :=
  decide_eq_true_iff

/-! ### Sample (R108 to R110) -/

/-- A value interpolated between two of at most `c`, its weights summing to `n`, is at most `c * n`. -/
theorem lerp_le {p q c f n : Nat} (hp : p ≤ c) (hq : q ≤ c) (hf : f ≤ n) : p * (n - f) + q * f ≤ c * n :=
  calc p * (n - f) + q * f
      ≤ c * (n - f) + c * f := Nat.add_le_add (Nat.mul_le_mul_right _ hp) (Nat.mul_le_mul_right _ hq)
    _ = c * n := by rw [← Nat.mul_add, Nat.sub_add_cancel hf]

/-- The pixel of an in-field coordinate lies in the frame (R105, R108). -/
theorem pixel_lt_of_inField {size x : Nat} (hsize : 1 ≤ size) (hx : x ≤ (size - 1) * 16) : x / 16 < size := by
  omega

/-- The neighbour of a pixel in the frame, taken at the edge when it is past it (R109). -/
theorem neighbour_eq {size p : Nat} (hp : p < size) :
    min (p + 1) (size - 1) = if p = size - 1 then size - 1 else p + 1 := by
  split <;> omega

/-- The neighbour of a pixel in the frame lies in it (R109). -/
theorem neighbour_lt {size p : Nat} (hp : p < size) : min (p + 1) (size - 1) < size := by
  omega

/-- A sample depends on the pixels inside the frame only (R109). -/
theorem sample_congr {pixel other : Nat → Nat → Nat} {width height x y : Nat} (hx : x / 16 < width)
    (hy : y / 16 < height) (h : ∀ i j, i < width → j < height → pixel i j = other i j) :
    sample pixel width height x y = sample other width height x y := by
  simp only [sample, h _ _ hx hy, h _ _ (neighbour_lt hx) hy, h _ _ hx (neighbour_lt hy),
    h _ _ (neighbour_lt hx) (neighbour_lt hy)]

/-- A sample interpolates in y between two interpolations in x (R110). -/
theorem sample_eq_lerp (pixel : Nat → Nat → Nat) (width height x y : Nat) :
    let row := fun j => pixel (x / 16) j * (16 - x % 16) + pixel (min (x / 16 + 1) (width - 1)) j * (x % 16)
    sample pixel width height x y
      = row (y / 16) * (16 - y % 16) + row (min (y / 16 + 1) (height - 1)) * (y % 16) := by
  simp only [sample, Nat.add_mul, Nat.add_assoc]

/-- A sample of codes of at most `c` is at most 256 times `c` (R110). -/
theorem sample_le {pixel : Nat → Nat → Nat} {c : Nat} (h : ∀ i j, pixel i j ≤ c) (width height x y : Nat) :
    sample pixel width height x y ≤ c * 16 * 16 := by
  have sixteenth : ∀ n, n % 16 ≤ 16 := fun n => (Nat.mod_lt n (by decide)).le
  rw [sample_eq_lerp]
  exact lerp_le (lerp_le (h _ _) (h _ _) (sixteenth x)) (lerp_le (h _ _) (h _ _) (sixteenth x)) (sixteenth y)

/-- Settles O43: the mean by floor division over the signed nodes, the axis offset, the field, and the sample. -/
theorem locatedSample : Obligations.LocatedSample := by
  refine ⟨fun store m u v => ?_, fun _ _ _ _ => rfl, inField_iff, ?_⟩
  · simp only [meshPoint, meshNode_eq, bilinear_eq_fdiv]
    rfl
  · intro pixel other width height x y hw hh hx hy px py fx fy right below
    have hpx : px < width := pixel_lt_of_inField hw hx
    have hpy : py < height := pixel_lt_of_inField hh hy
    have hright : min (px + 1) (width - 1) = right := neighbour_eq hpx
    have hbelow : min (py + 1) (height - 1) = below := neighbour_eq hpy
    refine ⟨?_, hpx, hright ▸ neighbour_lt hpx, hpy, hbelow ▸ neighbour_lt hpy, sample_congr hpx hpy,
      fun h => sample_le h width height x y⟩
    rw [← hright, ← hbelow]
    rfl

end Sys2Proof.Machine
end

section
/-! PROOFS. Tone, output codes and tallies (spec/06 R106; spec/08 R125 to R128, R130, R131). -/

namespace Sys2Proof.Machine

/-! ### Tone (R125 to R127) -/

/-- A half of a word, by division (02 2.4). -/
theorem halfOf_eq (w : Word) (m : Nat) : halfOf w m = w.toNat / 65536 ^ (m % 2) % 65536 := by
  rw [halfOf, bits_eq, bits_eq]
  rcases Nat.mod_two_eq_zero_or_one m with h | h <;> simp [h]

/-- A node of the curve is at most 1023 (R125). -/
theorem toneNode_le (store : List (Nat × Word)) (base n : Nat) : toneNode store base n ≤ 1023 :=
  Nat.min_le_left _ _

/-- The curve gives 10-bit codes: it is the mean of two nodes, rounded half up (R126). -/
theorem toneMap_curve_le (store : List (Nat × Word)) (base c12 : Nat) : toneMap store (.curve base) c12 ≤ 1023 := by
  have hmean := lerp_le (toneNode_le store base (c12 / 16)) (toneNode_le store base (c12 / 16 + 1))
    (Nat.mod_lt c12 (by decide : 0 < 16)).le
  rw [toneMap]
  omega

/-- The tone stage gives 10-bit codes in either mode (R126, R127). -/
theorem toneMap_le (store : List (Nat × Word)) (mode : ToneMode) {c12 : Nat} (h : c12 ≤ 4095) :
    toneMap store mode c12 ≤ 1023 := by
  cases mode with
  | linear => exact Nat.le_of_lt_succ (Nat.div_lt_of_lt_mul (Nat.lt_succ_of_le h))
  | curve base => exact toneMap_curve_le store base c12

/-! ### Output codes (R106, R122, R128) -/

/-- A greater 10-bit code gives no lesser output code (R128). -/
theorem formatCode_mono (format : Format) {a b : Nat} (h : a ≤ b) : formatCode format a ≤ formatCode format b := by
  cases format with
  | code10 => exact h
  | code8 => exact Nat.div_le_div_right h

/-- The fill value takes its output code as a toned pixel does (R106, R128). -/
theorem fillCode_eq (p : JobParams) : fillCode p = formatCode p.format p.fill := by
  unfold fillCode
  cases p.format <;> rfl

section
variable (store : List (Nat × Word)) (pixel : Nat → Nat → Nat) {f : Flight} {u v : Nat}

/-- An out-of-field pixel takes the fill value (R106). -/
theorem conditionPixel_of_outOfField (h : inField f.width f.height (locate store f u v) = false) :
    conditionPixel store pixel f u v = .filled (formatCode f.params.format f.params.fill) := by
  simp only [conditionPixel, h, Bool.false_eq_true, if_false, fillCode_eq]

/-- An in-field pixel passes the stages (R92). -/
theorem conditionPixel_of_inField (h : inField f.width f.height (locate store f u v) = true) :
    let x := (locate store f u v).1.toNat
    let y := (locate store f u v).2.toNat
    let d := blackSubtract f.params.blackSubtraction f.black (sample pixel f.width f.height x y)
    let c := correctedValue d (gainAt store f.gainMode x y) f.exposureScale
    conditionPixel store pixel f u v =
      .conditioned (formatCode f.params.format (toneMap store f.toneMode (min 4095 c))) (decide (4095 < c)) :=
  if_pos h

/-- Every output code lies in its format's range, as the fill value does (R106, R128). -/
theorem conditionPixel_code_le (hfill : f.params.fill ≤ 1023) :
    (conditionPixel store pixel f u v).code ≤ formatCode f.params.format 1023 := by
  cases h : inField f.width f.height (locate store f u v) with
  | false =>
    rw [conditionPixel_of_outOfField store pixel h]
    exact formatCode_mono _ hfill
  | true =>
    rw [conditionPixel_of_inField store pixel h]
    exact formatCode_mono _ (toneMap_le store _ (Nat.min_le_left _ _))

end

/-! ### Tallies (R130, R131) -/

/-- A code counts in its own bin alone (R131). -/
theorem pick_countBin (format : Format) (code : Nat) (bins : Vector Nat 16) (i : Fin 16) :
    pick (countBin format code bins) i
      = if i.val = histogramBin format code then pick bins i + 1 else pick bins i := by
  cases h : below? 16 (histogramBin format code) with
  | some k => simp only [countBin, h, pick_upd, Fin.ext_iff, below?_eq_some.1 h]
  | none =>
    have hbin : i.val ≠ histogramBin format code := (i.isLt.trans_le (below?_eq_none.1 h)).ne
    simp only [countBin, h, if_neg hbin]

/-- Settles O45: the curve and the linear default, the pixel's code in and out of field, and its tallies. -/
theorem tonedAndTallied : Obligations.TonedAndTallied := by
  refine ⟨?_, ?_, ?_⟩
  · intro store base c12 hc node
    have hnode : ∀ n, toneNode store base n = node n := fun n => by rw [toneNode, halfOf_eq]
    refine ⟨?_, toneMap_curve_le store base c12, rfl, toneMap_le store .linear hc⟩
    simp only [toneMap, hnode]
  · intro store pixel f u v point narrow
    have hnarrow : narrow = formatCode f.params.format := rfl
    rw [hnarrow]
    exact ⟨conditionPixel_of_outOfField store pixel, conditionPixel_of_inField store pixel,
      conditionPixel_code_le store pixel⟩
  · intro format t code saturated width
    have hbin : histogramBin format code = code / width := by cases format <;> rfl
    refine ⟨rfl, fun _ => ⟨_, rfl, rfl, rfl, rfl, ?_, fun hnone => congrArg (Option.map _) hnone, fun bins hbins => ?_⟩⟩
    · cases saturated <;> rfl
    · exact ⟨countBin format code bins, congrArg (Option.map _) hbins,
        fun i => hbin ▸ pick_countBin format code bins i⟩

end Sys2Proof.Machine
end

section
/-! PROOFS. The gain surfaces of a job, its gain mode and its blend weight (spec/05 R86; spec/07 R113, R114). -/

namespace Sys2Proof.Machine

/-! ### The selection of gain surfaces (R86) -/

section
variable {level : Fin 8} {a b c : GainEntry} {before rest : List GainEntry}

/-- A level at or below the first entry's takes that entry alone (R86). -/
theorem selectGains_of_le_head (h : level ≤ a.level) : selectGains level (a :: rest) = [a] := by
  cases rest with
  | nil => rfl
  | cons b rest => exact if_pos h

/-- A level strictly between the first two entries' takes both (R86). -/
theorem selectGains_of_between (ha : a.level < level) (hb : level < b.level) :
    selectGains level (a :: b :: rest) = [a, b] := by
  rw [selectGains, if_neg (not_le.2 ha), if_pos hb]

/-- The first entry is passed over when the second is still at or below the level (R86). -/
theorem selectGains_of_le_second (ha : a.level < level) (hb : b.level ≤ level) :
    selectGains level (a :: b :: rest) = selectGains level (b :: rest) := by
  rw [selectGains, if_neg (not_le.2 ha), if_neg (not_lt.2 hb)]

/-- Entries below the level that stand before one at or below it are passed over (R86). -/
theorem selectGains_append (hbefore : ∀ x ∈ before, x.level < level) (hc : c.level ≤ level) :
    selectGains level (before ++ c :: rest) = selectGains level (c :: rest) := by
  induction before with
  | nil => rfl
  | cons a before ih =>
    obtain ⟨ha, htail⟩ := List.forall_mem_cons.1 hbefore
    have hnext : selectGains level (a :: (before ++ c :: rest)) = selectGains level (before ++ c :: rest) := by
      cases before with
      | nil => exact selectGains_of_le_second ha hc
      | cons b before => exact selectGains_of_le_second ha (List.forall_mem_cons.1 htail).1.le
    exact hnext.trans (ih htail)

/-- In an ascending set the selection starts at any entry at or below the level (R86). -/
theorem selectGains_of_ascending (hasc : ascendingLevels (before ++ c :: rest) = true) (hc : c.level ≤ level) :
    selectGains level (before ++ c :: rest) = selectGains level (c :: rest) := by
  obtain ⟨-, -, hbelow⟩ := List.pairwise_append.1 ((ascendingLevels_iff _).1 hasc)
  exact selectGains_append (fun x hx => (hbelow x hx c List.mem_cons_self).trans_le hc) hc

end

/-! ### The gain mode and the blend weight (R113, R114) -/

/-- The blend weight is the floor of its quotient (R114). -/
theorem blendWeight_floor {level lower upper : Nat} (h : lower < upper) :
    blendWeight level lower upper * (upper - lower) ≤ (level - lower) * 256
      ∧ (level - lower) * 256 < (blendWeight level lower upper + 1) * (upper - lower) :=
  ⟨Nat.div_mul_le_self _ _, Nat.lt_mul_of_div_lt (Nat.lt_succ_self _) (Nat.sub_pos_of_lt h)⟩

/-- A level strictly between two others, at most 256 apart, has a weight of 1 to 255 (R114). -/
theorem blendWeight_bounds {level lower upper : Nat} (hlower : lower < level) (hupper : level < upper)
    (hgap : upper - lower ≤ 256) : 1 ≤ blendWeight level lower upper ∧ blendWeight level lower upper ≤ 255 := by
  have hone : upper - lower ≤ (level - lower) * 256 := by omega
  have hless : (level - lower) * 256 < (upper - lower) * 256 := by omega
  exact ⟨Nat.div_pos hone (by omega), Nat.le_of_lt_succ (Nat.div_lt_of_lt_mul hless)⟩

section
variable {level : Fin 8} {a b : GainLatch} {t u : Surface}

/-- A single surface that is usable is the gain's (R113). -/
theorem gainModeOf_single (ha : surfaceOf a.table = some t) : gainModeOf level [a] = .single t := by
  simp only [gainModeOf, ha]

/-- A single surface that has failed leaves gain unity (R113). -/
theorem gainModeOf_single_failed (ha : surfaceOf a.table = none) : gainModeOf level [a] = .unity := by
  simp only [gainModeOf, ha]

/-- Two usable surfaces blend, by the weight of their levels (R113, R114). -/
theorem gainModeOf_pair (ha : surfaceOf a.table = some t) (hb : surfaceOf b.table = some u) :
    gainModeOf level [a, b] = .blend t u (blendWeight level.val a.level.val b.level.val) := by
  simp only [gainModeOf, ha, hb]

/-- With the upper surface failed, the lower one gives the gain alone (R113). -/
theorem gainModeOf_pair_lower (ha : surfaceOf a.table = some t) (hb : surfaceOf b.table = none) :
    gainModeOf level [a, b] = .single t := by
  simp only [gainModeOf, ha, hb]

/-- With the lower surface failed, the upper one gives the gain alone (R113). -/
theorem gainModeOf_pair_upper (ha : surfaceOf a.table = none) (hb : surfaceOf b.table = some u) :
    gainModeOf level [a, b] = .single u := by
  simp only [gainModeOf, ha, hb]

/-- Two failed surfaces leave gain unity (R113). -/
theorem gainModeOf_pair_failed (ha : surfaceOf a.table = none) (hb : surfaceOf b.table = none) :
    gainModeOf level [a, b] = .unity := by
  simp only [gainModeOf, ha, hb]

end

/-- Settles O37: the selection started at the entry that decides it, the modes by outcome, and the weight. -/
theorem gainSelected : Obligations.GainSelected := by
  refine ⟨fun level es hasc => ⟨?_, ?_, ?_, ?_, ?_⟩, fun level a b => ⟨rfl, fun _ => gainModeOf_single,
    gainModeOf_single_failed, ?_, fun _ => gainModeOf_pair_lower, fun _ => gainModeOf_pair_upper,
    gainModeOf_pair_failed⟩⟩
  · rintro rfl
    rfl
  · intro a hhead hle
    obtain ⟨rest, rfl⟩ := List.head?_eq_some_iff.1 hhead
    exact selectGains_of_le_head hle
  · intro z hlast hle
    obtain ⟨before, rfl⟩ := List.getLast?_eq_some_iff.1 hlast
    exact selectGains_of_ascending hasc hle
  · intro m hm heq
    obtain ⟨before, rest, rfl⟩ := List.append_of_mem hm
    exact (selectGains_of_ascending hasc heq.le).trans (selectGains_of_le_head heq.ge)
  · intro before a b rest hes ha hb
    subst hes
    exact (selectGains_of_ascending hasc ha.le).trans (selectGains_of_between ha hb)
  · intro t u ht hu ha hb
    obtain ⟨hpos, hle⟩ := blendWeight_bounds ha hb (by omega)
    exact ⟨_, gainModeOf_pair ht hu, hpos, hle, blendWeight_floor (ha.trans hb)⟩

end Sys2Proof.Machine
end

section
/-! PROOFS. The level stage (spec/07 R115 to R121). -/

namespace Sys2Proof.Machine

/-! ### The exposure scale (R115) -/

/-- With both exposures there, the scale is the rounded quotient, clamped with the flag set (R115). -/
theorem exposureScale_of_quotient {eref ef q : Nat} (href : 0 < eref) (hef : 0 < ef)
    (hlow : q * (2 * ef) ≤ 2 * eref * 4096 + ef) (hhigh : 2 * eref * 4096 + ef < (q + 1) * (2 * ef)) :
    exposureScale eref ef
      = if q < 1024 then (1024, true) else if 65535 < q then (65535, true) else (q, false) := by
  have hq : (2 * eref * 4096 + ef) / (2 * ef) = q := Nat.div_eq_of_lt_le hlow hhigh
  simp only [exposureScale, if_neg href.ne', if_neg hef.ne', hq]

/-! ### Black subtraction (R116) -/

/-- Black subtraction stops at 0 (R116). -/
theorem blackSubtract_on (black : Half) (r256 : Nat) :
    (blackSubtract true black r256 : Int) = max 0 ((r256 : Int) - 16 * (black.toNat : Int)) := by
  rw [blackSubtract, if_pos rfl]
  omega

/-! ### The gain of a surface (R117 to R119) -/

/-- The cell of a surface of two nodes or more has its far node on the surface (R117). -/
theorem surfaceCell_index_lt {nodes : Nat} (hnodes : 2 ≤ nodes) (cw x : Nat) :
    (surfaceCell nodes cw x).1 + 1 < nodes :=
  calc (surfaceCell nodes cw x).1 + 1
      ≤ nodes - 2 + 1 := Nat.add_le_add_right (Nat.min_le_right _ _) 1
    _ < nodes := by omega

/-- A place of at most the last node's, in the cell that holds it or in the last cell, is at most a cell's size past
the cell's start (R117). -/
theorem sub_cell_le {nodes q g : Nat} (hnodes : 2 ≤ nodes) (hq : 0 < q) (hg : g ≤ (nodes - 1) * q) :
    g - min (g / q) (nodes - 2) * q ≤ q := by
  rcases le_total (g / q) (nodes - 2) with h | h
  · have hstart : g < g / q * q + q := Nat.lt_div_mul_add hq
    rw [min_eq_left h]
    omega
  · have hlast : (nodes - 1) * q = (nodes - 2) * q + q := by
      rw [← Nat.succ_mul, show (nodes - 2).succ = nodes - 1 by omega]
    rw [min_eq_right h]
    omega

/-- The position in a cell is at most 256, its far node's (R117). -/
theorem surfaceCell_position_le {nodes : Nat} (hnodes : 2 ≤ nodes) (cw x : Nat) :
    (surfaceCell nodes cw x).2 ≤ 256 := by
  have hq : 0 < 2 ^ (cw + 4) := Nat.two_pow_pos _
  have hin := sub_cell_le hnodes hq (Nat.min_le_right x ((nodes - 1) * 2 ^ (cw + 4)))
  exact Nat.div_le_of_le_mul (Nat.mul_le_mul_right 256 hin)

/-- A node's gain, by division (R118). -/
theorem gainNode_eq (store : List (Nat × Word)) (t : Surface) (i j : Nat) : gainNode store t i j =
    (storeRead store (t.base + 1 + (j * t.gw + i) / 2)).toNat / 65536 ^ ((j * t.gw + i) % 2) % 65536 :=
  halfOf_eq _ _

/-- A node's gain has 16 bits (R118). -/
theorem gainNode_le (store : List (Nat × Word)) (t : Surface) (i j : Nat) : gainNode store t i j ≤ 65535 := by
  rw [gainNode_eq]
  exact Nat.le_of_lt_succ (Nat.mod_lt _ (by decide))

/-- The gain of a surface has 16 bits: it is the mean of four nodes, rounded half up (R119). -/
theorem surfaceGain_le (store : List (Nat × Word)) {t : Surface} (x y : Nat) (hw : 2 ≤ t.gw) (hh : 2 ≤ t.gh) :
    surfaceGain store t x y ≤ 65535 := by
  have hx := surfaceCell_position_le hw t.cw x
  have hy := surfaceCell_position_le hh t.cw y
  have node := gainNode_le store t
  calc surfaceGain store t x y
      ≤ (65535 * 256 * 256 + 32768) / 65536 := Nat.div_le_div_right (Nat.add_le_add_right
        (lerp_le (lerp_le (node _ _) (node _ _) hx) (lerp_le (node _ _) (node _ _) hx) hy) 32768)
    _ ≤ 65535 := by decide

/-! ### The gain applied and the corrected value (R120, R121) -/

/-- A blend of surfaces has 16 bits: it is the mean of their gains, rounded half up (R120). -/
theorem gainAt_blend_le (store : List (Nat × Word)) {t u : Surface} {w : Nat} (x y : Nat) (hw : w ≤ 256)
    (ht : surfaceGain store t x y ≤ 65535) (hu : surfaceGain store u x y ≤ 65535) :
    gainAt store (.blend t u w) x y ≤ 65535 :=
  calc gainAt store (.blend t u w) x y
      ≤ (65535 * 256 + 128) / 256 := Nat.div_le_div_right (Nat.add_le_add_right (lerp_le ht hu hw) 128)
    _ ≤ 65535 := by decide

/-- The corrected value is the floor of its quotient (R121). -/
theorem correctedValue_floor (d g e : Nat) : correctedValue d g e * 2 ^ 32 ≤ d * g * e + 2 ^ 31
    ∧ d * g * e + 2 ^ 31 < (correctedValue d g e + 1) * 2 ^ 32 :=
  ⟨Nat.div_mul_le_self _ _, Nat.lt_mul_of_div_lt (Nat.lt_succ_self _) (Nat.two_pow_pos _)⟩

/-- The corrected value grows with the sample, the gain and the exposure scale (R121). -/
theorem correctedValue_mono {d d' g g' e e' : Nat} (hd : d ≤ d') (hg : g ≤ g') (he : e ≤ e') :
    correctedValue d g e ≤ correctedValue d' g' e' :=
  Nat.div_le_div_right (Nat.add_le_add_right (Nat.mul_le_mul (Nat.mul_le_mul hd hg) he) _)

/-- Settles O44: the clamped quotient, the black level, the place on a surface and its gain, and the bounds. -/
theorem levelled : Obligations.Levelled := by
  refine ⟨fun eref ef => ⟨?_, ?_, ?_⟩, fun black r256 => ⟨blackSubtract_on black r256, rfl⟩, ?_, ?_, ?_⟩
  · rintro rfl
    rfl
  · rintro href rfl
    rw [exposureScale, if_neg href.ne', if_pos rfl]
  · intro q href hef hlow hhigh
    rw [exposureScale_of_quotient href hef hlow hhigh]
    exact ⟨fun h => if_pos h, fun h h' => (if_neg h.not_gt).trans (if_neg h'.not_gt),
      fun h => (if_neg (by omega)).trans (if_pos h)⟩
  · intro store t x y hw hh q gx gy ci cj alpha beta gain
    have hgain : gain = gainNode store t := funext fun i => funext fun j => (gainNode_eq store t i j).symm
    refine ⟨surfaceCell_position_le hw t.cw x, surfaceCell_position_le hh t.cw y, surfaceCell_index_lt hw t.cw x,
      surfaceCell_index_lt hh t.cw y, ?_, surfaceGain_le store x y hw hh⟩
    rw [hgain]
    rfl
  · intro store t u w x y hw htw hth huw huh
    exact ⟨rfl, rfl, rfl, gainAt_blend_le store x y hw (surfaceGain_le store x y htw hth)
      (surfaceGain_le store x y huw huh)⟩
  · intro d g e
    obtain ⟨hlow, hhigh⟩ := correctedValue_floor d g e
    exact ⟨hlow, hhigh, fun hd hg he => (correctedValue_mono hd hg he).trans (by decide)⟩

end Sys2Proof.Machine
end

section
/-! PROOFS. What the invariants of the records and tallies read, and the two changes of the Record List that keep them:
the record of the job in flight revised, and a new one begun (spec/08 R129 to R131, spec/09 R139 to R141). -/

namespace Sys2Proof.Machine

/-! ### The invariants and what they read -/

/-- The Record List and the running tallies are sound. -/
structure RecordsFit (s : State) : Prop where
  list : RecordsSound s
  tallies : TalliesSound s

/-- What these invariants read of a state. -/
structure RecordParts where
  records : List Record
  next : RecordNumber
  flight : Option Flight

/-- The parts of a state that the invariants of the records and tallies read. -/
def State.recordParts (s : State) : RecordParts := ⟨s.records, s.nextRecord, s.flight⟩

/-- The record of the job in flight in `s`, where `t` holds it COMPLETE or DEGRADED, has a histogram part exactly when
the job latched the option on (R141). -/
def HistogramKept (s t : State) : Prop :=
  ∀ f ∈ s.flight, ∀ r ∈ t.records, r.number = f.record → (r.status = .complete ∨ r.status = .degraded) →
    r.histogram.isSome = f.params.histogram

/-- What every change from a sound `s` leaves: the records and tallies sound, the histogram part by the latched option,
and each finalised record as it stands until it is removed (R139 to R141). -/
structure RecordsServed (s t : State) : Prop where
  fit : RecordsFit t
  histogram : HistogramKept s t
  stand : ∀ r ∈ s.records, r.status ≠ .inProgress → r ∈ t.records ∨ ∀ q ∈ t.records, q.number ≠ r.number

/-- What a change that makes no record leaves: the same, with every finalised record still held. -/
structure RecordsHeld (s t : State) : Prop where
  fit : RecordsFit t
  histogram : HistogramKept s t
  stand : ∀ r ∈ s.records, r.status ≠ .inProgress → r ∈ t.records
  next : t.nextRecord = s.nextRecord

section
variable {s t u : State}

/-- A change that makes no record serves the records. -/
theorem RecordsHeld.served (h : RecordsHeld s t) : RecordsServed s t :=
  ⟨h.fit, h.histogram, fun r hr hdone => .inl (h.stand r hr hdone)⟩

/-- The tallies are read from the job in flight. -/
theorem TalliesSound.congr (h : TalliesSound s) (hf : t.flight = s.flight) : TalliesSound t where
  counted := hf ▸ h.counted
  saturated := hf ▸ h.saturated
  kept := hf ▸ h.kept
  binned := hf ▸ h.binned

/-- With no job in flight there are no tallies. -/
theorem talliesSound_idle (hidle : s.flight = none) : TalliesSound s := by
  have hnone (f : Flight) : f ∉ s.flight := hidle ▸ Option.not_mem_none f
  exact ⟨fun f hf => absurd hf (hnone f), fun f hf => absurd hf (hnone f), fun f hf => absurd hf (hnone f),
    fun f hf => absurd hf (hnone f)⟩

/-! ### The record of the job in flight revised -/

/-- From `s` to `t` the record IN_PROGRESS is revised by `g` and every other stands; a job in flight after is in flight
before, and the revised record is IN_PROGRESS exactly while there is one. -/
structure Revises (g : Record → Record) (s t : State) : Prop where
  records : t.records = s.records.map fun r => if r.status = .inProgress then g r else r
  next : t.nextRecord = s.nextRecord
  flight : ∀ f ∈ t.flight, ∃ f' ∈ s.flight, f'.record = f.record
  number : ∀ r, (g r).number = r.number
  status : ∀ r ∈ s.records, r.status = .inProgress → ((g r).status = .inProgress ↔ t.flight.isSome)
  parts : ∀ r, r.status = .inProgress → r.partsFit → (g r).partsFit
  histogram : ∀ f ∈ s.flight, ∀ r, r.status = .inProgress → ((g r).status = .complete ∨ (g r).status = .degraded) →
    (g r).histogram.isSome = f.params.histogram

section
variable {g : Record → Record}

/-- A record after the revision was there before it: revised, or as it stands. -/
theorem Revises.mem (h : Revises g s t) {r : Record} (hr : r ∈ t.records) : ∃ q ∈ s.records, r.number = q.number
    ∧ (q.status = .inProgress ∧ r = g q ∨ q.status ≠ .inProgress ∧ r = q) := by
  rw [h.records] at hr
  obtain ⟨q, hq, rfl⟩ := List.mem_map.1 hr
  refine ⟨q, hq, ?_⟩
  split
  · next hp => exact ⟨h.number q, .inl ⟨hp, rfl⟩⟩
  · next hp => exact ⟨rfl, .inr ⟨hp, rfl⟩⟩

/-- A revision keeps the Record List sound. -/
theorem RecordsSound.revise (hs : RecordsSound s) (h : Revises g s t) : RecordsSound t where
  bound := by rw [h.records, List.length_map]; exact hs.bound
  numbers := by
    have hnumbers : t.records.map Record.number = s.records.map Record.number := by
      rw [h.records, List.map_map]
      refine List.map_congr_left fun r _ => ?_
      simp only [Function.comp_apply, apply_ite Record.number, h.number, ite_self]
    rw [hnumbers, hs.numbers, h.next, h.records, List.length_map]
  newest f hf := by
    obtain ⟨f', hf', e⟩ := h.flight f hf
    obtain ⟨hne, hnewest⟩ := hs.newest f' hf'
    exact ⟨by rw [h.records]; exact mt List.map_eq_nil_iff.1 hne, by rw [← e, h.next, hnewest]⟩
  inProgress r hr := by
    obtain ⟨q, hq, hnumber, ⟨hp, rfl⟩ | ⟨hp, rfl⟩⟩ := h.mem hr
    · rw [h.status q hq hp, h.number]
      obtain ⟨f, hf, hfq⟩ := (hs.inProgress q hq).1 hp
      refine ⟨fun hsome => ?_, fun ⟨f', hf', _⟩ => Option.isSome_of_mem hf'⟩
      obtain ⟨f', hf'⟩ := Option.isSome_iff_exists.1 hsome
      obtain ⟨f'', hf'', e⟩ := h.flight f' hf'
      cases Option.mem_unique hf hf''
      exact ⟨f', hf', e.symm.trans hfq⟩
    · refine ⟨fun h' => absurd h' hp, fun ⟨f, hf, hfr⟩ => absurd ?_ hp⟩
      obtain ⟨f', hf', e⟩ := h.flight f hf
      exact (hs.inProgress r hq).2 ⟨f', hf', e.trans hfr⟩
  parts r hr := by
    obtain ⟨q, hq, -, ⟨hp, rfl⟩ | ⟨-, rfl⟩⟩ := h.mem hr
    · exact h.parts q hp (hs.parts q hq)
    · exact hs.parts r hq

/-- A revision that keeps the tallies holds the records. -/
theorem Revises.held (h : Revises g s t) (hs : RecordsFit s) (htallies : TalliesSound t) : RecordsHeld s t where
  fit := ⟨hs.list.revise h, htallies⟩
  histogram f hf r hr hnumber hdone := by
    obtain ⟨q, hq, -, ⟨hp, rfl⟩ | ⟨hp, rfl⟩⟩ := h.mem hr
    · exact h.histogram f hf q hp hdone
    · exact absurd ((hs.list.inProgress r hq).2 ⟨f, hf, hnumber.symm⟩) hp
  stand r hr hdone := by
    rw [h.records]
    exact List.mem_map.2 ⟨r, hr, if_neg hdone⟩
  next := h.next

end

/-- The record of the job in flight is the one IN_PROGRESS. -/
theorem RecordsSound.updRecord_flight (hs : RecordsSound s) {f : Flight} (hf : s.flight = some f)
    (g : Record → Record) :
    (s.updRecord f.record g).records = s.records.map fun r => if r.status = .inProgress then g r else r := by
  refine List.map_congr_left fun r hr => if_congr ?_ rfl rfl
  rw [hs.inProgress r hr]
  simp [hf, eq_comm]

/-! ### Changes that leave the parts -/

/-- Two states with the same parts, field by field. -/
theorem recordParts_eq_iff : t.recordParts = s.recordParts ↔
    t.records = s.records ∧ t.nextRecord = s.nextRecord ∧ t.flight = s.flight := by
  simp only [State.recordParts, RecordParts.mk.injEq]

/-- A change that leaves the parts revises nothing. -/
theorem RecordsHeld.of_parts (hs : RecordsFit s) (hp : t.recordParts = s.recordParts) : RecordsHeld s t := by
  obtain ⟨hrecords, hnext, hflight⟩ := recordParts_eq_iff.1 hp
  have hrevises : Revises id s t :=
    { records := by simp only [hrecords, id_eq, ite_self, List.map_id']
      next := hnext
      flight := fun f hf => ⟨f, hflight ▸ hf, rfl⟩
      number := fun _ => rfl
      status := fun r hr hp => by
        obtain ⟨f, hf, -⟩ := (hs.list.inProgress r hr).1 hp
        exact ⟨fun _ => hflight ▸ Option.isSome_of_mem hf, fun _ => hp⟩
      parts := fun _ _ h => h
      histogram := fun _ _ r hp hdone => absurd hdone (by simp [hp]) }
  exact hrevises.held hs (hs.tallies.congr hflight)

/-- A sound state is judged by its parts. -/
theorem RecordsFit.congr (h : RecordsFit s) (hp : t.recordParts = s.recordParts) : RecordsFit t :=
  (RecordsHeld.of_parts h hp).fit

/-- A held change is judged by the parts after it. -/
theorem RecordsHeld.congr {t' : State} (h : RecordsHeld s t) (hp : t'.recordParts = t.recordParts) :
    RecordsHeld s t' := by
  obtain ⟨hrecords, hnext, -⟩ := recordParts_eq_iff.1 hp
  exact ⟨h.fit.congr hp, by rw [HistogramKept, hrecords]; exact h.histogram, hrecords ▸ h.stand, hnext.trans h.next⟩

/-- A served change is judged by the parts before and after it. -/
theorem RecordsServed.congr {s' t' : State} (h : RecordsServed s t) (hs : s'.recordParts = s.recordParts)
    (ht : t'.recordParts = t.recordParts) : RecordsServed s' t' := by
  obtain ⟨hsrecords, -, hsflight⟩ := recordParts_eq_iff.1 hs
  obtain ⟨htrecords, -, -⟩ := recordParts_eq_iff.1 ht
  refine ⟨h.fit.congr ht, ?_, ?_⟩
  · rw [HistogramKept, hsflight, htrecords]
    exact h.histogram
  · rw [hsrecords, htrecords]
    exact h.stand

/-! ### A record begun -/

/-- The records that stay when one more is made: at 1024 records the oldest goes (R139). -/
def State.keptRecords (s : State) : List Record :=
  if decide (1024 ≤ s.records.length) then s.records.drop 1 else s.records

/-- From `s` to `t` the engine, IDLE, makes record `r` with the next number; it is IN_PROGRESS exactly when the job goes
into flight, and then with fresh tallies (R83, R129, R140). -/
structure Begins (r : Record) (s t : State) : Prop where
  idle : s.flight = none
  records : t.records = s.keptRecords ++ [r]
  next : t.nextRecord = s.nextRecord + 1
  number : r.number = s.nextRecord
  status : r.status = .inProgress ↔ t.flight.isSome
  parts : r.partsFit
  flight : ∀ f ∈ t.flight, f.record = s.nextRecord ∧ f.tallies = freshTallies f.params.histogram ∧ f.produced = 0

/-- The numbers are consecutive, place by place (R139). -/
theorem numbers_iff (rs : List Record) (n : RecordNumber) :
    rs.map Record.number = (List.range rs.length).map (fun i =>
      n - BitVec.ofNat 32 rs.length + BitVec.ofNat 32 i)
    ↔ ∀ i (hi : i < rs.length), rs[i].number = n - BitVec.ofNat 32 rs.length + BitVec.ofNat 32 i := by
  constructor
  · intro h i hi
    have := congrArg (fun l : List RecordNumber => l[i]?) h
    simpa [hi] using this
  · intro h
    exact List.ext_getElem (by simp) fun i hi _ => by simpa using h i (by simpa using hi)

/-- No two records have one number (R139). -/
theorem RecordsSound.numbers_nodup (h : RecordsSound s) : (s.records.map Record.number).Nodup := by
  have hbound := h.bound
  rw [h.numbers]
  refine List.nodup_range.map_on fun i hi j hj e => ?_
  rw [List.mem_range] at hi hj
  bv_omega

/-- The records kept are the last of those held, and leave a place (R139). -/
theorem RecordsSound.keptRecords_eq (h : RecordsSound s) :
    ∃ d k, s.records.length = k + d ∧ k < 1024 ∧ s.keptRecords = s.records.drop d := by
  have hbound := h.bound
  unfold State.keptRecords
  split
  · next hfull =>
    have := of_decide_eq_true hfull
    exact ⟨1, s.records.length - 1, by omega, by omega, rfl⟩
  · next hroom =>
    have := mt decide_eq_true hroom
    exact ⟨0, s.records.length, rfl, by omega, List.drop_zero.symm⟩

/-- A record held stays, or goes with its number. -/
theorem RecordsSound.kept_or_gone (h : RecordsSound s) {r : Record} (hr : r ∈ s.records) :
    r ∈ s.keptRecords ∨ ∀ q ∈ s.keptRecords, q.number ≠ r.number := by
  unfold State.keptRecords
  split
  · have hnodup := h.numbers_nodup
    cases hlist : s.records with
    | nil => exact absurd (hlist ▸ hr) List.not_mem_nil
    | cons a rest =>
      rw [hlist, List.map_cons, List.nodup_cons] at hnodup
      rcases List.mem_cons.1 (hlist ▸ hr) with rfl | hr
      · exact .inr fun q hq e => hnodup.1 (e ▸ List.mem_map_of_mem hq)
      · exact .inl hr
  · exact .inl hr

section
variable {r : Record}

/-- A record after the start: the new one, or one held before. -/
theorem Begins.mem (h : Begins r s t) {q : Record} (hq : q ∈ t.records) :
    q = r ∨ q ∈ s.keptRecords ∧ q ∈ s.records := by
  rw [h.records, List.mem_append, List.mem_singleton] at hq
  refine hq.symm.imp_right fun hq => ⟨hq, ?_⟩
  unfold State.keptRecords at hq
  split at hq
  · exact List.mem_of_mem_drop hq
  · exact hq

/-- The first number of `k` consecutive ones and the next, of which `d` before them have gone. -/
theorem first_number (n : RecordNumber) (d k : Nat) :
    n + 1 - BitVec.ofNat 32 (k + 1) = n - BitVec.ofNat 32 (k + d) + BitVec.ofNat 32 d := by
  rw [BitVec.ofNat_add, BitVec.ofNat_add]
  bv_omega

/-- The record begun has the number after the newest's, and the list holds consecutive numbers. -/
theorem RecordsSound.numbers_begin (hs : RecordsSound s) (h : Begins r s t) :
    t.records.map Record.number = (List.range t.records.length).map fun i =>
      t.nextRecord - BitVec.ofNat 32 t.records.length + BitVec.ofNat 32 i := by
  obtain ⟨d, k, hlength, -, hkept⟩ := hs.keptRecords_eq
  have hnumbers := (numbers_iff s.records s.nextRecord).1 hs.numbers
  have hlist : t.records = s.records.drop d ++ [r] := hkept ▸ h.records
  refine (numbers_iff _ _).2 fun i hi => ?_
  simp only [hlist, List.length_append, List.length_drop, List.length_singleton, hlength, Nat.add_sub_cancel] at hi ⊢
  simp only [h.next, List.getElem_append, List.getElem_drop, List.length_drop, hlength, Nat.add_sub_cancel]
  split
  · rw [hnumbers, hlength]
    rw [first_number _ d, BitVec.ofNat_add d i, BitVec.add_assoc]
  · have hlast : i = k := by omega
    rw [List.getElem_singleton, h.number, hlast, first_number _ 0, Nat.add_zero, BitVec.add_zero,
      BitVec.sub_add_cancel]

/-- A record begun keeps the Record List sound. -/
theorem RecordsSound.begin (hs : RecordsSound s) (h : Begins r s t) : RecordsSound t where
  bound := by
    obtain ⟨d, k, hlength, hroom, hkept⟩ := hs.keptRecords_eq
    rw [h.records, hkept, List.length_append, List.length_drop, List.length_singleton]
    omega
  numbers := hs.numbers_begin h
  newest f hf := by
    obtain ⟨hrecord, -, -⟩ := h.flight f hf
    refine ⟨?_, by rw [hrecord, h.next]⟩
    rw [h.records]
    exact List.append_ne_nil_of_right_ne_nil _ (List.cons_ne_nil _ _)
  inProgress q hq := by
    rcases h.mem hq with rfl | ⟨-, hq⟩
    · rw [h.status, h.number, Option.isSome_iff_exists]
      exact exists_congr fun f => ⟨fun hf => ⟨hf, (h.flight f hf).1⟩, fun hf => hf.1⟩
    · refine ⟨fun hp => ?_, fun ⟨f, hf, e⟩ => absurd (e.symm.trans (h.flight f hf).1) (hs.fresh hq)⟩
      obtain ⟨f, hf, -⟩ := (hs.inProgress q hq).1 hp
      exact absurd (h.idle ▸ hf) (Option.not_mem_none f)
  parts q hq := by
    rcases h.mem hq with rfl | ⟨-, hq⟩
    · exact h.parts
    · exact hs.parts q hq

/-- Fresh tallies are sound (R129). -/
theorem TalliesSound.fresh (h : ∀ f ∈ t.flight, f.tallies = freshTallies f.params.histogram ∧ f.produced = 0) :
    TalliesSound t where
  counted f hf := by rw [(h f hf).1, (h f hf).2]; rfl
  saturated f hf := by rw [(h f hf).1]; exact le_refl 0
  kept f hf := by
    rw [(h f hf).1]
    cases hopt : f.params.histogram <;> rfl
  binned f hf b hb := by
    rw [(h f hf).1] at hb ⊢
    cases hopt : f.params.histogram with
    | false => rw [hopt] at hb; cases hb
    | true => rw [hopt] at hb; cases hb; rfl

/-- A record begun after a change that made none: what the change served is served. -/
theorem RecordsHeld.begin (h : RecordsHeld s u) (hs : RecordsFit s) (hb : Begins r u t) : RecordsServed s t where
  fit := ⟨h.fit.list.begin hb, .fresh fun f hf => (hb.flight f hf).2⟩
  histogram f hf q hq hnumber := by
    rcases hb.mem hq with rfl | ⟨-, hq⟩
    · obtain ⟨-, hnewest⟩ := hs.list.newest f hf
      have hnew : f.record = f.record + 1 := by
        rw [hnewest, ← h.next, ← hb.number, hnumber]
      bv_omega
    · exact h.histogram f hf q hq hnumber
  stand q hq hdone := by
    have hheld := h.stand q hq hdone
    rw [hb.records]
    refine (h.fit.list.kept_or_gone hheld).imp (List.mem_append_left _) fun hgone x hx => ?_
    rcases List.mem_append.1 hx with hx | hx
    · exact hgone x hx
    · rw [List.mem_singleton.1 hx, hb.number]
      exact (h.fit.list.fresh hheld).symm

end

end

end Sys2Proof.Machine
end

section
/-! PROOFS. The rows that leave the records and the job in flight: the camera packets, the Uplink Arbiter, the downlink
and relay, and every command but Engine Abort and Soft Reset (spec/09 R141). -/

namespace Sys2Proof.Machine

/-! ### Operations that leave the parts -/

section
variable (s : State)

/-- A notice. -/
@[simp] theorem recordParts_raise (n : Notice) : (s.raise n).recordParts = s.recordParts := by
  obtain ⟨q, k, i, h⟩ := raise_only s n
  rw [h]
  rfl

/-- A view that leaves its waiting state. -/
@[simp] theorem recordParts_settle (v : Fin 16) : (s.settle v).recordParts = s.recordParts := by
  rw [settle_eq]
  rfl

/-- An offer to the Forward Queue. -/
@[simp] theorem recordParts_offer (e : ForwardEntry) : (s.offer e).recordParts = s.recordParts := by
  obtain ⟨fq, vs, q, k, i, h⟩ := offer_only s e
  rw [h]
  rfl

/-- Queued jobs removed. -/
@[simp] theorem recordParts_removeJobs (gone : Job → Bool) : (s.removeJobs gone).recordParts = s.recordParts := by
  rw [removeJobs_eq]
  rfl

end

/-- A run of operations leaves the parts when each does. -/
theorem recordParts_foldl {α : Type} {f : State → α → State} (h : ∀ s a, (f s a).recordParts = s.recordParts)
    (as : List α) (s : State) : (as.foldl f s).recordParts = s.recordParts := by
  induction as generalizing s with
  | nil => rfl
  | cons a as ih => rw [List.foldl_cons, ih, h]

/-! ### The camera packets (R5, R8, R11) -/

section
variable (c : Fin 4) (s : State)

/-- A line repaired, or the frame damaged. -/
theorem recordParts_repairLine : (repairLine c s).recordParts = s.recordParts := by
  unfold repairLine
  split
  · dsimp only
    split
    · exact recordParts_raise ..
    · rfl
  all_goals rfl

/-- A run of repairs. -/
theorem recordParts_repairLines (n : Nat) : (repairLines c n s).recordParts = s.recordParts := by
  induction n generalizing s with
  | zero => rfl
  | succ n ih => rw [repairLines, ih, recordParts_repairLine]

/-- A view's visit by a posted frame. -/
theorem recordParts_visitView (job : Fin 16 → Job) (v : Fin 16) :
    (visitView job s v).recordParts = s.recordParts := by
  unfold visitView
  repeat' split
  all_goals rfl

/-- A posted frame. -/
theorem recordParts_postFrame (r : Reception) : (postFrame c r s).recordParts = s.recordParts := by
  have hoffered (t : State) : (offerFrame c r t).recordParts = t.recordParts :=
    recordParts_foldl (fun t v => recordParts_visitView t _ v) _ t
  have hstopped (t : State) : (t.stopReceiving r.slot).recordParts = t.recordParts := rfl
  rw [postFrame, hstopped, hoffered, trackBlack_eq, sequenceCheck_eq]
  rfl

/-- A frame closed. -/
theorem recordParts_closeFrame (r : Reception) (sent : Nat) : (closeFrame c r sent s).recordParts = s.recordParts := by
  have hrepaired (n : Nat) : (repairLines c n (s.checkSent c sent)).recordParts = s.recordParts := by
    rw [recordParts_repairLines, State.checkSent_eq]
    rfl
  simp only [closeFrame]
  split
  · exact (recordParts_postFrame ..).trans (hrepaired _)
  all_goals exact hrepaired _

/-- A frame begun or turned away. -/
theorem recordParts_beginFrame (f : FrameStartFields) : (beginFrame c f s).recordParts = s.recordParts := by
  simp only [beginFrame]
  repeat' split
  all_goals rfl

/-- A line taken. -/
theorem recordParts_takeLine (r : Reception) (l : LineFields) : (takeLine c r l s).recordParts = s.recordParts := by
  have hwritten (t : State) : (writeLine c l t).recordParts = t.recordParts := by
    unfold writeLine
    split <;> rfl
  simp only [takeLine]
  split
  · rfl
  · split
    · rfl
    · split
      · exact (hwritten _).trans (recordParts_repairLines ..)
      · exact recordParts_repairLines ..

end

section
variable {c : Fin 4} {packet : List Byte} {s t : State}

/-- FRAME_START. -/
theorem exec_frameStart_recordParts (h : exec (.frameStart c packet) s = .next t) : t.recordParts = s.recordParts := by
  simp only [exec, execFrameStart] at h
  split at h
  · cases h
    rfl
  · split at h <;> cases h
    · rfl
    · exact recordParts_beginFrame ..
    · exact recordParts_beginFrame ..
    · exact (recordParts_beginFrame ..).trans (recordParts_closeFrame ..)

/-- LINE. -/
theorem exec_line_recordParts (h : exec (.line c packet) s = .next t) : t.recordParts = s.recordParts := by
  simp only [exec, execLine] at h
  split at h
  · cases h
    rfl
  · split at h <;> cases h
    · exact recordParts_takeLine ..
    all_goals rfl

/-- FRAME_END. -/
theorem exec_frameEnd_recordParts (h : exec (.frameEnd c packet) s = .next t) : t.recordParts = s.recordParts := by
  simp only [exec, execFrameEnd] at h
  split at h
  · cases h
    rfl
  · split at h <;> cases h
    · exact recordParts_closeFrame ..
    all_goals rfl

/-! ### The Uplink Arbiter and the other rows outside the interpreter (R154 to R156, R160 to R163, R168) -/

/-- The end of a transmission. -/
theorem recordParts_sendEnd (x : Transmission) (truncated : Bool) (s : State) :
    (sendEnd x truncated s).recordParts = s.recordParts := by
  simp only [sendEnd]
  split <;> rfl

/-- A new transmission. -/
theorem recordParts_startTransmission (s : State) : (startTransmission s).recordParts = s.recordParts := by
  have hstale := recordParts_foldl (f := countStale) (fun _ _ => rfl) (s.forwardQueue.takeWhile s.entryStale) s
  simp only [startTransmission]
  split
  · exact hstale
  · refine Eq.trans ?_ hstale
    simp only [beginTransmission]
    split <;> rfl

/-- The packets of the image transmissions. -/
theorem recordParts_sendImage (s : State) : (sendImage s).recordParts = s.recordParts := by
  unfold sendImage
  split
  · split
    · exact recordParts_sendEnd ..
    · split
      · rfl
      · split
        · rfl
        · exact recordParts_sendEnd ..
  · split
    · rfl
    · exact recordParts_startTransmission s

/-- UPLINK_PORT_READY. -/
theorem exec_uplinkPortReady_recordParts (h : exec .uplinkPortReady s = .next t) : t.recordParts = s.recordParts := by
  cases h
  unfold arbitrate
  split
  · rfl
  · split
    · rfl
    · split
      · rfl
      · exact recordParts_sendImage s

/-- DOWNLINK_PACKET. -/
theorem exec_downlinkPacket_recordParts (h : exec (.downlinkPacket packet) s = .next t) :
    t.recordParts = s.recordParts := by
  simp only [exec, execDownlinkPacket] at h
  split at h <;> cases h
  · rfl
  · simp only [dispatchPacket, bufferPacket]
    repeat' split
    all_goals rfl

/-- UNKNOWN_COMMAND. -/
theorem exec_unknownCommand_recordParts (h : exec .unknownCommand s = .next t) : t.recordParts = s.recordParts := by
  simp only [exec, execUnknownCommand] at h
  split at h
  · cases h
    rfl
  · split at h <;> cases h <;> rfl

/-- BROADCAST_IGNORED. -/
theorem exec_broadcastIgnored_recordParts (h : exec .broadcastIgnored s = .next t) : t.recordParts = s.recordParts := by
  simp only [exec, execBroadcastIgnored] at h
  split at h
  · cases h
    rfl
  · split at h <;> cases h <;> rfl

/-- STARTUP_SWEEP_END. -/
theorem exec_startupSweepEnd_recordParts (h : exec .startupSweepEnd s = .next t) : t.recordParts = s.recordParts := by
  cases h
  split <;> rfl

/-- RELAY_BYTE. -/
theorem exec_relayByte_recordParts {b : Byte} (h : exec (.relayByte b) s = .next t) :
    t.recordParts = s.recordParts := by
  cases h
  split <;> rfl

/-- RELAY_IDLE_TIMEOUT. -/
theorem exec_relayIdleTimeout_recordParts (h : exec .relayIdleTimeout s = .next t) : t.recordParts = s.recordParts := by
  cases h
  split <;> rfl

end

/-! ### The interpreter (R163) -/

/-- A command's rule that leaves the parts the invariants of the records read. -/
def LeavesRecords (rule : List Byte → State → Answer) : Prop :=
  ∀ payload s, ((rule payload s).left s).recordParts = s.recordParts

/-- A command's rule that serves the records. -/
def ServesRecords (rule : List Byte → State → Answer) : Prop :=
  ∀ payload s, RecordsFit s → RecordsServed s ((rule payload s).left s)

/-- A rule that leaves the parts serves the records. -/
theorem LeavesRecords.serves {rule : List Byte → State → Answer} (h : LeavesRecords rule) : ServesRecords rule :=
  fun payload s hs => (RecordsHeld.of_parts hs (h payload s)).served

section
variable {rule : List Byte → State → Answer} {c : Command} {s t : State}

/-- The checks of R163 leave the parts, or the rule runs. -/
theorem ServesRecords.checked (h : ServesRecords rule) (c : Command) (payload : List Byte) (hs : RecordsFit s) :
    RecordsServed s ((checked c payload rule s).left s) := by
  rcases checked_cases c payload rule s with ⟨-, -, e⟩ | ⟨-, -, e⟩ | ⟨-, -, e⟩ | ⟨-, e⟩ | ⟨-, e⟩ <;> rw [e]
  · exact (RecordsHeld.of_parts hs rfl).served
  · exact (RecordsHeld.of_parts (t := s.cancelLoad) hs rfl).served
  · exact (RecordsHeld.of_parts hs rfl).served
  · exact (RecordsHeld.of_parts hs rfl).served
  · exact h payload s hs

/-- A row of the interpreter serves the records when its command's rule does. -/
theorem ServesRecords.row (h : ServesRecords rule) (hs : RecordsFit s) (ht : runCommand c rule s = .next t) :
    RecordsServed s t := by
  rcases runCommand_cases c rule s with e | ⟨p, rest, -, ⟨u, status, data, hu, e⟩ | ⟨f, -, e⟩⟩
  · cases e.symm.trans ht
    exact (RecordsHeld.of_parts hs rfl).served
  · cases e.symm.trans ht
    have hserved := h.checked c p.payload (s := { s with commandBuffer := rest }) (hs.congr rfl)
    rw [hu] at hserved
    exact hserved.congr rfl rfl
  · cases e.symm.trans ht

/-- A row also executed by broadcast serves the records when its rule and its effect do. -/
theorem ServesRecords.broadcastRow {effect : List Byte → State → State} (h : ServesRecords rule)
    (he : ∀ payload s, RecordsFit s → RecordsServed s (effect payload s)) (hs : RecordsFit s)
    (ht : runBroadcastable c rule effect s = .next t) : RecordsServed s t := by
  rcases runBroadcastable_cases c rule effect s with e | ⟨p, rest, -, -, -, -, e⟩
  · exact h.row hs (e ▸ ht)
  · cases e.symm.trans ht
    exact (he p.payload { s with commandBuffer := rest } (hs.congr rfl)).congr rfl rfl

end

/-! ### The commands that leave the records

In every branch of each of the listed rules the fields that change are none these invariants read. -/

/-- The commands of the cameras, the descriptors and the protection window (spec/01, spec/02). -/
theorem leavesRecords_configuration : ∀ rule ∈ [setCameraRule, cameraEnableRule, setBlackLevelRule, writeDescriptorRule,
    readDescriptorRule, clearAccessedRule, lockRule lockNext, lockRule unlockNext, lockRule lockDownNext, setWindowRule,
    protectionLockRule], LeavesRecords rule := by
  simp only [List.forall_mem_cons]
  refine ⟨?_, ?_, ?_, ?_, ?_, ?_, ?_, ?_, ?_, ?_, ?_, nofun⟩ <;> intro payload s
  all_goals
    simp only [setCameraRule, cameraEnableRule, enableCamera, disableCamera, setBlackLevelRule, writeDescriptorRule,
      readDescriptorRule, clearAccessedRule, lockRule, setWindowRule, protectionLockRule]
    repeat' split
  all_goals rfl

/-- The commands of the Load Unit (spec/03). -/
theorem leavesRecords_loading : ∀ rule ∈ [loadOpenRule, loadDataRule, loadCommitRule, loadCancelRule, streamOpenRule,
    streamDataRule, streamCancelRule, readTableRule], LeavesRecords rule := by
  simp only [List.forall_mem_cons]
  refine ⟨?_, ?_, ?_, ?_, ?_, ?_, ?_, ?_, nofun⟩ <;> intro payload s
  all_goals
    simp only [loadOpenRule, loadDataRule, loadCommitRule, loadCancelRule, streamOpenRule, streamDataRule,
      streamCancelRule, readTableRule]
    repeat' split
  all_goals rfl

/-- The commands of the View Table but View Disable, and those that read the records and set the time (spec/04,
spec/09). -/
theorem leavesRecords_views : ∀ rule ∈ [writeViewRule, readViewRule, viewActivateRule, viewHoldRule, readRecordsRule,
    setTimeTagRule], LeavesRecords rule := by
  simp only [List.forall_mem_cons]
  refine ⟨?_, ?_, ?_, ?_, ?_, ?_, nofun⟩ <;> intro payload s
  all_goals
    simp only [writeViewRule, readViewRule, viewActivateRule, viewHoldRule, readRecordsRule, setTimeTagRule, setTimeTag]
    repeat' split
  all_goals rfl

/-- The commands of the uplink but the recalls, and of the management (spec/10, spec/11). -/
theorem leavesRecords_management : ∀ rule ∈ [uplinkPauseRule, uplinkResumeRule, uplinkFlushRule, identifyRule,
    getStatusRule, clearStatusRule, readCountersRule, setNoticeMaskRule], LeavesRecords rule := by
  simp only [List.forall_mem_cons]
  refine ⟨?_, ?_, ?_, ?_, ?_, ?_, ?_, ?_, nofun⟩ <;> intro payload s
  all_goals
    simp only [uplinkPauseRule, uplinkResumeRule, uplinkFlushRule, identifyRule, getStatusRule, clearStatusRule,
      readCountersRule, setNoticeMaskRule]
    repeat' split
  all_goals rfl

/-- The Time Tag Counter's update (R145). -/
theorem recordParts_setTimeTag (payload : List Byte) (s : State) :
    (setTimeTag payload s).recordParts = s.recordParts := by
  unfold setTimeTag
  split <;> rfl

/-- View Disable removes queued jobs (R70). -/
theorem leavesRecords_viewDisable : LeavesRecords viewDisableRule := fun payload s => by
  simp only [viewDisableRule, disableView]
  split
  · rfl
  · next v _ =>
    refine Eq.trans ?_ (recordParts_removeJobs s fun j => j.view == v)
    simp only [viewStateReply, Answer.left]
    split <;> rfl

/-- A recall at most offers an entry to the Forward Queue (R152). -/
theorem recordParts_recallRecord {n : RecordNumber} {s t : State} {d : Disposition}
    (h : recallRecord n s = .ok (t, d)) : t.recordParts = s.recordParts := by
  rcases recallRecord_cases h with rfl | ⟨r, -, m, rfl, -⟩
  · rfl
  · exact recordParts_offer ..

/-- Recall Frame (R152). -/
theorem leavesRecords_recallFrame : LeavesRecords recallFrameRule := fun payload s => by
  simp only [recallFrameRule]
  split
  · rfl
  · next h => exact recordParts_recallRecord h

/-- Recall Latest (R153). -/
theorem leavesRecords_recallLatest : LeavesRecords recallLatestRule := fun payload s => by
  simp only [recallLatestRule]
  split
  · rfl
  · split
    · rfl
    · split
      · rfl
      · next h => exact recordParts_recallRecord h

end Sys2Proof.Machine
end

section
/-! PROOFS. The engine's rows serve the records: a pixel counted, a job ended or stopped, and the start of the next
(spec/05 R83 to R95, spec/08 R129 to R131, spec/09 R139 to R141). Every row and every step does. -/

namespace Sys2Proof.Machine

/-! ### The tallies of one more pixel (R129 to R131) -/

/-- One more in one bin is one more in all. -/
theorem sum_upd_succ {n : Nat} (v : Vector Nat n) (i : Fin n) :
    (upd v i (· + 1)).toList.sum = v.toList.sum + 1 := by
  have hi : i.val < v.toList.length := by simp
  have hsplit : v.toList.sum = (v.toList.take i.val).sum + (pick v i + (v.toList.drop (i.val + 1)).sum) := by
    conv_lhs => rw [← List.take_append_drop i.val v.toList, List.drop_eq_getElem_cons hi]
    simp [pick]
  rw [upd, Vector.toList_set, List.sum_set, if_pos hi, hsplit]
  omega

/-- Output codes of either format fall in bins 0 to 15 (R128, R131). -/
theorem histogramBin_formatCode_lt (format : Format) {c : Nat} (h : c ≤ 1023) :
    histogramBin format (formatCode format c) < 16 := by
  cases format with
  | code10 => exact Nat.div_lt_of_lt_mul (Nat.lt_succ_of_le h)
  | code8 =>
    have hcode : c / 4 < 256 := Nat.div_lt_of_lt_mul (Nat.lt_succ_of_le h)
    exact Nat.div_lt_of_lt_mul hcode

/-- The bin of an in-field pixel's code is one of the 16 (R131). -/
theorem conditioned_bin_lt {store : List (Nat × Word)} {pixel : Nat → Nat → Nat} {f : Flight} {u v code : Nat}
    {saturated : Bool} (h : conditionPixel store pixel f u v = .conditioned code saturated) :
    histogramBin f.params.format code < 16 := by
  cases hfield : inField f.width f.height (locate store f u v) with
  | false =>
    rw [conditionPixel_of_outOfField store pixel hfield] at h
    cases h
  | true =>
    rw [conditionPixel_of_inField store pixel hfield] at h
    cases h
    exact histogramBin_formatCode_lt _ (toneMap_le store _ (Nat.min_le_left _ _))

/-- A code of one of the 16 bins adds one to their sum (R131). -/
theorem sum_countBin {format : Format} {code : Nat} (h : histogramBin format code < 16) (bins : Vector Nat 16) :
    (countBin format code bins).toList.sum = bins.toList.sum + 1 := by
  have hbin : below? 16 (histogramBin format code) = some ⟨histogramBin format code, h⟩ := below?_eq_some.2 rfl
  rw [countBin, hbin]
  exact sum_upd_succ ..

/-- The pixel counted once, in or out of field, keeps the tallies sound (R130, R131). -/
theorem TalliesSound.tallied {s t : State} {f : Flight} (hs : TalliesSound s) (hf : s.flight = some f) {r : PixelResult}
    (hbin : ∀ code saturated, r = .conditioned code saturated → histogramBin f.params.format code < 16)
    (ht : t.flight = some { f with tallies := tally f.params.format r f.tallies, produced := f.produced + 1 }) :
    TalliesSound t := by
  have hcounted := hs.counted f hf
  have hsaturated := hs.saturated f hf
  have hkept := hs.kept f hf
  have hbinned := hs.binned f hf
  cases r with
  | filled code =>
    constructor <;> (rw [ht]; rintro _ ⟨⟩)
    · exact (Nat.add_assoc ..).symm.trans (congrArg (· + 1) hcounted)
    · exact hsaturated
    · exact hkept
    · exact hbinned
  | conditioned code saturated =>
    constructor <;> (rw [ht]; rintro _ ⟨⟩)
    · simp only [tally]
      omega
    · simp only [tally]
      split <;> omega
    · simpa only [tally, Option.isSome_map] using hkept
    · intro b hb
      obtain ⟨bins, hbins, rfl⟩ := Option.mem_map.1 hb
      simp only [tally]
      rw [sum_countBin (hbin code saturated rfl), hbinned bins hbins]

/-! ### Output pixels (R92) -/

section
variable {s t u : State} {f : Flight}

/-- An output pixel joins a flag to its record and counts itself (R92, R107, R122, R130). -/
theorem heldRecords_producePixel (hs : RecordsFit s) (hf : s.flight = some f) : RecordsHeld s (producePixel f s) := by
  have hrevises : Revises (fun r => { r with flags := joinFlags r.flags (pixelFlags (s.nextPixel f)) }) s
      (producePixel f s) :=
    { records := hs.list.updRecord_flight hf _
      next := rfl
      flight := fun g hg => ⟨f, hf, by cases hg; rfl⟩
      number := fun _ => rfl
      status := fun _ _ hp => ⟨fun _ => rfl, fun _ => hp⟩
      parts := fun _ _ h => h
      histogram := fun _ _ r hp hdone => absurd hdone (by simp [hp]) }
  exact hrevises.held hs (hs.tallies.tallied hf (fun _ _ => conditioned_bin_lt) rfl)

/-- OUTPUT_PIXEL. -/
theorem exec_outputPixel_records (hs : RecordsFit s) (h : exec .outputPixel s = .next t) : RecordsHeld s t := by
  simp only [exec, execOutputPixel] at h
  split at h
  · cases h
    exact .of_parts hs rfl
  · next f hf =>
    split at h <;> cases h
    · exact heldRecords_producePixel hs hf
    · exact .of_parts hs rfl

/-! ### A job finalised (R94, R95, R170) -/

/-- A record made COMPLETE or DEGRADED, with its statistics and its histogram part (R94, R132). -/
def Record.completed (f : Flight) (degraded : Bool) (tag : Word) (r : Record) : Record :=
  { r with
    status := if degraded then .degraded else .complete
    tagFinal := some tag
    statistics := some ⟨meanCode f.tallies, f.tallies.saturated, f.tallies.outOfField⟩
    histogram := f.tallies.bins }

/-- The record of the job in flight completed, and the engine IDLE. -/
theorem heldRecords_finished (hs : RecordsFit s) (hf : s.flight = some f) (degraded : Bool) :
    RecordsHeld s (s.finished f degraded) := by
  have hrevises : Revises (Record.completed f degraded s.timeTag) s (s.finished f degraded) :=
    { records := hs.list.updRecord_flight hf _
      next := rfl
      flight := fun g hg => absurd hg (Option.not_mem_none g)
      number := fun _ => rfl
      status := fun _ _ _ => by cases degraded <;> exact ⟨nofun, nofun⟩
      parts := fun r hp hfit => by
        simp only [Record.partsFit, hp] at hfit
        obtain ⟨-, hmark, -, -⟩ := hfit
        cases degraded <;> exact ⟨rfl, hmark, rfl⟩
      histogram := fun g hg _ _ _ => by
        cases hf.symm.trans hg
        exact hs.tallies.kept f hf }
  exact hrevises.held hs (talliesSound_idle rfl)

/-- The buffer's advance. -/
theorem recordParts_advanceBuffer (v : Fin 16) (n : RecordNumber) (degraded : Bool) (s : State) :
    (advanceBuffer v n degraded s).recordParts = s.recordParts := by
  simp only [advanceBuffer]
  split
  · rfl
  · split
    · exact recordParts_raise ..
    · rfl

/-- Forwarding selection. -/
theorem recordParts_selectRecord (f : Flight) (mark : SlotMark) (s : State) :
    (selectRecord f mark s).recordParts = s.recordParts := by
  simp only [selectRecord]
  split
  · exact recordParts_offer ..
  · rfl

/-- The end of a job, before the engine's next start (R94). -/
theorem heldRecords_endJob (hs : RecordsFit s) (hf : s.flight = some f) : RecordsHeld s (endJob f s) := by
  have hparts : (endJob f s).recordParts = (s.finished f (jobDegraded f s)).recordParts := by
    have hlast (t : State) : (t.updView f.job.view fun w => { w with lastGood := some f.record }).recordParts
        = t.recordParts := rfl
    rw [endJob, recordParts_settle, hlast, recordParts_selectRecord, recordParts_advanceBuffer, completeRecord_released]
  exact (heldRecords_finished hs hf _).congr hparts

/-- A record finalised as ABORTED (R142). -/
def Record.stopped (tag : Word) (r : Record) : Record := { r with status := .aborted, tagFinal := some tag }

/-- The job in flight, if any, gone with its record ABORTED (R95, R142). -/
theorem heldRecords_aborted (hs : RecordsFit s)
    (hp : t.recordParts = State.recordParts { abortRecord s with flight := none }) : RecordsHeld s t := by
  refine RecordsHeld.congr ?_ hp
  unfold abortRecord
  split
  · next f hf =>
    have hrevises : Revises (Record.stopped s.timeTag) s { s.finalise f.record .aborted with flight := none } :=
      { records := hs.list.updRecord_flight hf _
        next := rfl
        flight := fun g hg => absurd hg (Option.not_mem_none g)
        number := fun _ => rfl
        status := fun _ _ _ => ⟨nofun, nofun⟩
        parts := fun r hp hfit => by
          simp only [Record.partsFit, hp] at hfit
          obtain ⟨-, hmark, hstatistics, hhistogram⟩ := hfit
          exact ⟨rfl, hmark, hstatistics, hhistogram⟩
        histogram := fun _ _ _ _ hdone => absurd hdone (by simp [Record.stopped]) }
    exact hrevises.held hs (talliesSound_idle rfl)
  · next hidle => exact .of_parts hs (recordParts_eq_iff.2 ⟨rfl, rfl, hidle.symm⟩)

/-- The job in flight, if any, stopped: its record ABORTED and the engine IDLE (R95). -/
theorem recordParts_abortFlight (s : State) :
    (abortFlight s).recordParts = State.recordParts { abortRecord s with flight := none } := by
  cases hf : s.flight with
  | none =>
    have habort : abortFlight s = s := by simp only [abortFlight, hf]
    have hrecord : abortRecord s = s := by simp only [abortRecord, hf]
    rw [habort, hrecord]
    exact recordParts_eq_iff.2 ⟨rfl, rfl, hf⟩
  | some f =>
    have habort : abortFlight s = abortJob f s := by simp only [abortFlight, hf]
    have hrecord : abortRecord s = s.finalise f.record .aborted := by simp only [abortRecord, hf]
    rw [habort, hrecord]
    exact recordParts_eq_iff.2 ⟨rfl, rfl, rfl⟩

/-- Engine Abort before the engine's next start (R95). -/
theorem heldRecords_abortEngine (flush : Bool) (hs : RecordsFit s) : RecordsHeld s (abortEngine flush s) := by
  refine heldRecords_aborted hs (Eq.trans ?_ (recordParts_abortFlight s))
  refine (recordParts_foldl recordParts_settle _ _).trans ?_
  split
  · exact recordParts_removeJobs ..
  · rfl

/-- Soft Reset keeps the list and aborts the record of the job in flight (R142, R170). -/
theorem heldRecords_softReset (hs : RecordsFit s) : RecordsHeld s (softReset s) := heldRecords_aborted hs rfl

/-! ### The start of the next job (R82 to R90) -/

section
variable {j : Job} {rest : List Job} {r : Record}

/-- The head job's record made, the engine stays IDLE for now. -/
theorem started_flight (h : Startable j rest s) (r : Record) : (s.started rest r).flight = none := by
  obtain ⟨q, k, i, hs⟩ := started_only s rest
  rw [hs]
  exact h.idle

/-- A job that ends in its own start leaves its record finalised (R84, R89). -/
theorem begins_ended (h : Startable j rest s) (hnumber : r.number = s.nextRecord) (hparts : r.partsFit)
    (hstatus : r.status ≠ .inProgress) (hp : t.recordParts = (s.started rest r).recordParts) : Begins r s t := by
  obtain ⟨hrecords, hnext, hflight⟩ := recordParts_eq_iff.1 hp
  have hidle := hflight.trans (started_flight h r)
  exact
    { idle := h.idle
      records := hrecords
      next := hnext
      number := hnumber
      status := by rw [hidle]; exact ⟨fun hp => absurd hp hstatus, nofun⟩
      parts := hparts
      flight := fun f hf => absurd (hidle ▸ hf) (Option.not_mem_none f) }

/-- A job whose mesh fails leaves a FAULT record (R89). -/
theorem faultJob_begins (h : Startable j rest s) (x : TableFailure) :
    ∃ r, Begins r s (faultJob j s.nextRecord x (s.latched j rest)) := by
  refine ⟨_, begins_ended h (r := { s.flagged j (newRecord s j) with status := .fault, tagFinal := some s.timeTag }) rfl
    ⟨rfl, rfl, rfl, rfl⟩ nofun ?_⟩
  rw [faultJob_latched h]
  exact recordParts_raise ..

/-- What follows the latching of its tables leaves the job's record FAULT, or IN_PROGRESS with the job in flight (R89,
R90). -/
theorem latchJob_begins_record (h : Startable j rest s) (x : Fin 52) :
    ∃ r, Begins r s (latchJob j s.nextRecord x (s.started rest (newRecord s j))) := by
  rw [latchJob_started h, meshDecides]
  split
  · exact faultJob_begins h _
  · split
    · rw [beginStages_latched h]
      exact ⟨_,
        { idle := h.idle
          records := rfl
          next := rfl
          number := rfl
          status := ⟨fun _ => rfl, fun _ => rfl⟩
          parts := ⟨rfl, rfl, rfl, rfl⟩
          flight := fun f hf => by cases hf; exact ⟨rfl, rfl, rfl⟩ }⟩
    · exact faultJob_begins h _

/-- The engine's start of the head job: nothing, or a record begun (R82, R83, R140). -/
theorem startHead_begins (hs : RecordsSound s) (h : startHead s = .ok t) : t = s ∨ ∃ r, Begins r s t := by
  cases hf : s.flight with
  | some f =>
    rw [startHead_of_flight hf] at h
    cases h
    exact .inl rfl
  | none =>
    cases hj : s.jobs with
    | nil =>
      rw [startHead_of_jobs_nil hj] at h
      cases h
      exact .inl rfl
    | cons j rest =>
      have hstart : Startable j rest s := ⟨hf, hj, hs.bound, fun r hr => hs.fresh hr⟩
      simp only [startHead_of_jobs_cons hf hj, startJob, createRecord_eq] at h
      split at h
      · cases h
      · split at h <;> cases h
        · rw [skipJob_started hstart]
          exact .inr ⟨_, begins_ended hstart (r := { newRecord s j with
            status := .skipped, flags := joinFlag (newRecord s j).flags .slotHeld, tagFinal := some s.timeTag })
            rfl ⟨rfl, rfl, rfl, rfl⟩ nofun rfl⟩
        · exact .inr (latchJob_begins_record hstart _)

end

/-- The engine's start after a change that made no record. -/
theorem RecordsHeld.start (h : RecordsHeld s u) (hs : RecordsFit s) (ht : startHead u = .ok t) : RecordsServed s t := by
  rcases startHead_begins h.fit.list ht with rfl | ⟨r, hr⟩
  · exact h.served
  · exact h.begin hs hr

/-- JOB_END. -/
theorem exec_jobEnd_records (hs : RecordsFit s) (h : exec .jobEnd s = .next t) : RecordsServed s t := by
  simp only [exec, execJobEnd] at h
  split at h
  · cases h
    exact (RecordsHeld.of_parts hs rfl).served
  · next f hf =>
    split at h
    · cases h
      exact (RecordsHeld.of_parts hs rfl).served
    · exact (heldRecords_endJob hs hf).start hs (engineOutcome_next h)

/-- Engine Abort (R95). -/
theorem servesRecords_engineAbort : ServesRecords engineAbortRule := fun payload s hs => by
  simp only [engineAbortRule]
  split
  · exact (RecordsHeld.of_parts hs rfl).served
  · next flush _ =>
    split
    · exact (RecordsHeld.of_parts hs rfl).served
    · next t ht => exact (heldRecords_abortEngine flush hs).start hs ht

/-! ### Every row -/

/-- Every row but POWER_ON_RESET serves the records. -/
theorem exec_records {i : Instr} (hi : ∀ strap, i ≠ .powerOnReset strap) (hs : RecordsFit s)
    (h : exec i s = .next t) : RecordsServed s t := by
  have hleft (hp : t.recordParts = s.recordParts) : RecordsServed s t := (RecordsHeld.of_parts hs hp).served
  have hrow {c : Command} {rule : List Byte → State → Answer} (hrule : LeavesRecords rule)
      (h : runCommand c rule s = .next t) : RecordsServed s t := hrule.serves.row hs h
  cases i with
  | powerOnReset strap => exact absurd rfl (hi strap)
  | startupSweepEnd => exact hleft (exec_startupSweepEnd_recordParts h)
  | frameStart c packet => exact hleft (exec_frameStart_recordParts h)
  | line c packet => exact hleft (exec_line_recordParts h)
  | frameEnd c packet => exact hleft (exec_frameEnd_recordParts h)
  | cameraPacketIgnored c packet =>
    cases h
    exact hleft rfl
  | downlinkPacket packet => exact hleft (exec_downlinkPacket_recordParts h)
  | unknownCommand => exact hleft (exec_unknownCommand_recordParts h)
  | broadcastIgnored => exact hleft (exec_broadcastIgnored_recordParts h)
  | identify => exact hrow (leavesRecords_management identifyRule (by simp)) h
  | getStatus => exact hrow (leavesRecords_management getStatusRule (by simp)) h
  | clearStatus => exact hrow (leavesRecords_management clearStatusRule (by simp)) h
  | readCounters => exact hrow (leavesRecords_management readCountersRule (by simp)) h
  | setNoticeMask => exact hrow (leavesRecords_management setNoticeMaskRule (by simp)) h
  | softReset =>
    exact ServesRecords.broadcastRow (rule := softResetRule) (fun _ _ hs => (heldRecords_softReset hs).served)
      (fun _ _ hs => (heldRecords_softReset hs).served) hs h
  | setCamera => exact hrow (leavesRecords_configuration setCameraRule (by simp)) h
  | cameraEnable => exact hrow (leavesRecords_configuration cameraEnableRule (by simp)) h
  | setBlackLevel => exact hrow (leavesRecords_configuration setBlackLevelRule (by simp)) h
  | writeDescriptor => exact hrow (leavesRecords_configuration writeDescriptorRule (by simp)) h
  | readDescriptor => exact hrow (leavesRecords_configuration readDescriptorRule (by simp)) h
  | clearAccessedDescriptor => exact hrow (leavesRecords_configuration clearAccessedRule (by simp)) h
  | lockDescriptor => exact hrow (leavesRecords_configuration (lockRule lockNext) (by simp)) h
  | unlockDescriptor => exact hrow (leavesRecords_configuration (lockRule unlockNext) (by simp)) h
  | lockDownDescriptor => exact hrow (leavesRecords_configuration (lockRule lockDownNext) (by simp)) h
  | setProtectionWindow => exact hrow (leavesRecords_configuration setWindowRule (by simp)) h
  | protectionLock => exact hrow (leavesRecords_configuration protectionLockRule (by simp)) h
  | loadOpen => exact hrow (leavesRecords_loading loadOpenRule (by simp)) h
  | loadData => exact hrow (leavesRecords_loading loadDataRule (by simp)) h
  | loadCommit => exact hrow (leavesRecords_loading loadCommitRule (by simp)) h
  | loadCancel => exact hrow (leavesRecords_loading loadCancelRule (by simp)) h
  | streamOpen => exact hrow (leavesRecords_loading streamOpenRule (by simp)) h
  | streamData => exact hrow (leavesRecords_loading streamDataRule (by simp)) h
  | streamCancel => exact hrow (leavesRecords_loading streamCancelRule (by simp)) h
  | readTable => exact hrow (leavesRecords_loading readTableRule (by simp)) h
  | writeView => exact hrow (leavesRecords_views writeViewRule (by simp)) h
  | readView => exact hrow (leavesRecords_views readViewRule (by simp)) h
  | viewActivate => exact hrow (leavesRecords_views viewActivateRule (by simp)) h
  | viewHold => exact hrow (leavesRecords_views viewHoldRule (by simp)) h
  | viewDisable => exact hrow leavesRecords_viewDisable h
  | engineAbort => exact servesRecords_engineAbort.row hs h
  | setTimeTag =>
    exact (leavesRecords_views setTimeTagRule (by simp)).serves.broadcastRow
      (fun payload _ hs => (RecordsHeld.of_parts hs (recordParts_setTimeTag payload _)).served) hs h
  | readRecords => exact hrow (leavesRecords_views readRecordsRule (by simp)) h
  | recallFrame => exact hrow leavesRecords_recallFrame h
  | recallLatest => exact hrow leavesRecords_recallLatest h
  | uplinkPause => exact hrow (leavesRecords_management uplinkPauseRule (by simp)) h
  | uplinkResume => exact hrow (leavesRecords_management uplinkResumeRule (by simp)) h
  | uplinkFlush => exact hrow (leavesRecords_management uplinkFlushRule (by simp)) h
  | jobStart => exact (RecordsHeld.of_parts hs rfl).start hs (engineOutcome_next h)
  | outputPixel => exact (exec_outputPixel_records hs h).served
  | jobEnd => exact exec_jobEnd_records hs h
  | timeTagTick =>
    cases h
    exact hleft rfl
  | relayByte b => exact hleft (exec_relayByte_recordParts h)
  | relayIdleTimeout => exact hleft (exec_relayIdleTimeout_recordParts h)
  | uplinkPortReady => exact hleft (exec_uplinkPortReady_recordParts h)

/-- A step that is no power-on reset serves the records. -/
theorem step_records (hp : ∀ strap rest, s.pending ≠ .powerOnReset strap :: rest) (hs : RecordsFit s)
    (h : step s = .next t) : RecordsServed s t := by
  cases hq : s.pending with
  | nil =>
    simp only [step, hq] at h
    cases h
    exact (RecordsHeld.of_parts hs rfl).served
  | cons i rest =>
    rw [step_cons hq] at h
    exact (exec_records (s := { s with pending := rest }) (fun strap e => hp strap rest (e ▸ hq)) (hs.congr rfl)
      h).congr rfl rfl

end

/-- Settles O59: a power-on reset leaves an empty list, and every other row leaves the records, revises the one of the
job in flight, or begins the next; the bins a completed job leaves are there exactly by its latched option. -/
theorem recordsKept : Obligations.RecordsKept := by
  intro s t hlist htallies h
  by_cases hp : ∃ strap rest, s.pending = .powerOnReset strap :: rest
  · obtain ⟨strap, rest, hq⟩ := hp
    rw [step_cons hq] at h
    cases h
    have hreset : RecordsFit State.reset := ⟨recordsSound_reset, talliesSound_reset⟩
    obtain ⟨hlist', htallies'⟩ := hreset.congr (t := { State.reset with
      pending := rest, epoch := s.epoch + 1, nodeAddress := BitVec.ofNat 8 (strap.val + 1) }) rfl
    exact ⟨hlist', htallies', fun _ _ r hr => absurd hr List.not_mem_nil, fun hne => absurd hq (hne strap rest)⟩
  · obtain ⟨⟨hlist', htallies'⟩, hhistogram, hstand⟩ :=
      step_records (fun strap rest hq => hp ⟨strap, rest, hq⟩) ⟨hlist, htallies⟩ h
    exact ⟨hlist', htallies', hhistogram, fun _ => hstand⟩

end Sys2Proof.Machine
end

section
/-! PROOFS. The buffer's advance and forwarding selection (spec/09 R137, R138; spec/10 R146 to R149). -/

namespace Sys2Proof.Machine

section
variable {s : State} {v : Fin 16}

/-- A view update is what it does to the view. -/
theorem updView_congr {f g : View → View} (h : f (pick s.views v) = g (pick s.views v)) :
    s.updView v f = s.updView v g := by
  rw [State.updView, upd_congr h, State.updView]

/-- A view update that changes nothing. -/
theorem updView_self {f : View → View} (h : f (pick s.views v) = pick s.views v) : s.updView v f = s := by
  rw [State.updView, upd_self _ _ _ h]

/-! ### The buffer's advance (R137, R138) -/

/-- A DEGRADED job without advance-on-degraded leaves the buffer (R137). -/
theorem advanceBuffer_degraded {degraded : Bool} (n : RecordNumber) (hd : degraded = true)
    (ha : (pick s.views v).params.advanceOnDegraded = false) : advanceBuffer v n degraded s = s := by
  simp only [advanceBuffer, hd, ha, Bool.not_false, Bool.and_self, if_true]

/-- Any other job's end advances it, and a ring that comes round raises RING_WRAP (R137, R138). -/
theorem advanceBuffer_advances {degraded : Bool} (n : RecordNumber)
    (h : degraded = false ∨ (pick s.views v).params.advanceOnDegraded = true) {g : View → View} {wrapped : Bool}
    (hg : (pick s.views v).advance = (g (pick s.views v), wrapped)) :
    advanceBuffer v n degraded s = if wrapped
      then (s.updView v g).raise (.ringWrap v (pick s.views v).params.job.ringLength n) else s.updView v g := by
  have hadvances : (degraded && !(pick s.views v).params.advanceOnDegraded) = false := by
    rcases h with h | h <;> simp [h]
  simp only [advanceBuffer, hadvances, hg, Bool.false_eq_true, if_false]
  rw [updView_congr (f := fun _ => g (pick s.views v)) (g := g) rfl]

/-! ### Forwarding selection (R146 to R149) -/

/-- The entry a selected record is offered with (R146). -/
def State.selectedEntry (s : State) (f : Flight) (mark : SlotMark) : ForwardEntry :=
  ⟨f.record, f.job.view, (pick s.views f.job.view).params.priority, mark, f.params.width, f.params.height,
    f.params.format⟩

/-- Selection as an update of the view, and the offer of a chosen record (R146). -/
theorem selectRecord_of_select {f : Flight} (mark : SlotMark) {g : View → View} {chosen : Bool}
    (h : (pick s.views f.job.view).select f.job.header.odometer f.job.header.marker
      = (chosen, g (pick s.views f.job.view))) :
    selectRecord f mark s = if chosen then (s.updView f.job.view g).offer (s.selectedEntry f mark)
      else s.updView f.job.view g := by
  obtain ⟨hparams, -⟩ := View.select_stands (pick s.views f.job.view) f.job.header.odometer f.job.header.marker
  rw [h] at hparams
  dsimp only at hparams
  simp only [selectRecord, h, hparams]
  rw [updView_congr (f := fun _ => g (pick s.views f.job.view)) (g := g) rfl]
  rfl

/-- A chosen record is offered, its view having taken the forwarding state of its class (R146). -/
theorem selectRecord_chosen {f : Flight} (mark : SlotMark) {g : View → View}
    (h : (pick s.views f.job.view).select f.job.header.odometer f.job.header.marker
      = (true, g (pick s.views f.job.view))) :
    selectRecord f mark s = (s.updView f.job.view g).offer (s.selectedEntry f mark) :=
  (selectRecord_of_select mark h).trans (if_pos rfl)

/-- A record that is not chosen leaves its view's forwarding state alone to change (R146). -/
theorem selectRecord_passed {f : Flight} (mark : SlotMark) {g : View → View}
    (h : (pick s.views f.job.view).select f.job.header.odometer f.job.header.marker
      = (false, g (pick s.views f.job.view))) :
    selectRecord f mark s = s.updView f.job.view g :=
  (selectRecord_of_select mark h).trans (if_neg Bool.false_ne_true)

end

/-- The distance of two odometers is the magnitude of their exact difference (R148). -/
theorem le_odometerDistance_iff (d : Nat) (a b : Word) :
    d ≤ odometerDistance a b ↔ (d : Int) ≤ |a.toInt - b.toInt| := by
  rw [odometerDistance, Int.abs_eq_natAbs, Nat.cast_le]

/-- Selection by SPACING: the first record, and each at least `d` away from the last one forwarded (R148). -/
theorem View.select_spacing {w : View} {d : Nat} (e : w.params.forwardClass = .spacing d) (o : Word) (m : Bool) :
    w.select o m = if w.lastOdometer.all fun x => decide ((d : Int) ≤ |o.toInt - x.toInt|)
      then (true, { w with lastOdometer := some o }) else (false, w) := by
  simp only [View.select, e]
  cases w.lastOdometer with
  | none => rfl
  | some x => simp only [Option.all_some, le_odometerDistance_iff]

/-- Settles O41: the buffer by its scheme, and the selection by its class. -/
theorem advanceAndSelect : Obligations.AdvanceAndSelect := by
  refine ⟨fun s v n degraded => ⟨advanceBuffer_degraded n, fun h => ?_⟩, fun s f mark => ?_⟩
  · cases e : (pick s.views v).params.job.scheme with
    | unbuffered =>
      exact (advanceBuffer_advances n h (g := id) (wrapped := false) (by simp only [View.advance, e, id_eq])).trans
        (updView_self rfl)
    | single =>
      exact (advanceBuffer_advances n h (g := id) (wrapped := false) (by simp only [View.advance, e, id_eq])).trans
        (updView_self rfl)
    | double =>
      exact advanceBuffer_advances n h (g := fun y => { y with doubleIndex := 1 - y.doubleIndex }) (wrapped := false)
        (by simp only [View.advance, e])
    | ring =>
      let next := ((pick s.views v).ringPointer + 1) % (pick s.views v).params.job.ringLength
      exact (advanceBuffer_advances n h (g := fun y => { y with ringPointer := next }) (wrapped := next == 0)
        (by simp only [View.advance, e, next])).trans (if_congr beq_iff_eq rfl rfl)
  · intro w entry change
    have hchosen {g : View → View} (h : w.select f.job.header.odometer f.job.header.marker = (true, g w)) :
        selectRecord f mark s = (change g).offer entry := selectRecord_chosen mark h
    have hpassed {g : View → View} (h : w.select f.job.header.odometer f.job.header.marker = (false, g w)) :
        selectRecord f mark s = change g := selectRecord_passed mark h
    have hself : change id = s := updView_self rfl
    cases e : w.params.forwardClass with
    | off => exact (hpassed (g := id) (by simp only [View.select, e, id_eq])).trans hself
    | every =>
      exact (hchosen (g := id) (by simp only [View.select, e, id_eq])).trans (congrArg (State.offer · entry) hself)
    | decimate n =>
      dsimp only
      split
      · next hn => exact hchosen (by simp only [View.select, e, if_pos hn])
      · next hn => exact hpassed (by simp only [View.select, e, if_neg hn])
    | spacing d =>
      dsimp only
      split
      · next hd => exact hchosen ((View.select_spacing e ..).trans (if_pos hd))
      · next hd => exact (hpassed (g := id) ((View.select_spacing e ..).trans (if_neg hd))).trans hself
    | marker k =>
      by_cases hb : 0 < if f.job.header.marker then k else w.burst
      · exact (hchosen (by simp only [View.select, e, if_pos hb])).trans (if_pos hb).symm
      · exact (hpassed (by simp only [View.select, e, if_neg hb])).trans (if_neg hb).symm

end Sys2Proof.Machine
end

section
/-! PROOFS. Read Records and the Time Tag Counter (spec/09 R143 to R145). -/

namespace Sys2Proof.Machine

/-- A payload of a word and a byte reads back (R171). -/
theorem wordBytePayload_layout {a b : Nat} (ha : a < 4294967296) (hb : b < 256) :
    num (leBytes 4 a ++ leBytes 1 b) 0 4 = a ∧ num (leBytes 4 a ++ leBytes 1 b) 4 1 = b :=
  ⟨leNat_leBytes (k := 4) ha, leNat_leBytes (k := 1) hb⟩

/-! ### Read Records (R143) -/

section
variable {s : State} {p : Packet} {rest : List Packet}

/-- A started Read Records answers by its rule in every load state. -/
theorem exec_readRecords (hst : Started .readRecords p rest s) (hs : s.starting = false) {first : RecordNumber}
    {count : Nat} (hp : p.payload = leBytes 4 first.toNat ++ leBytes 1 count) :
    exec .readRecords s = answerTo p (readRecordsRule (leBytes 4 first.toNat ++ leBytes 1 count)
      { s with commandBuffer := rest }) := by
  rw [← hp]
  exact runCommand_proceeds hst (proceeds_always hs rfl) (hp ▸ rfl) _

/-- Read Records on its layout: its count, and its entries by number modulo 2^32. -/
theorem readRecordsRule_layout (first : RecordNumber) {count : Nat} (hc : count < 256) (s : State) :
    readRecordsRule (leBytes 4 first.toNat ++ leBytes 1 count) s = if count < 1 ∨ 8 < count then refuse s .badParam
      else .reply s .ok ((List.range count).flatMap (fun i => recordEntry s (first + BitVec.ofNat 32 i))
        ++ leBytes 4 s.nextRecord.toNat) := by
  obtain ⟨hfirst, hcount⟩ := wordBytePayload_layout first.isLt hc
  simp only [readRecordsRule, hfirst, hcount, ofNat_toNat_self]

/-! ### Set Time Tag (R145) -/

/-- A row also executed by broadcast, on a packet for this node, is its command's row. -/
theorem runBroadcastable_started {c : Command} (h : Started c p rest s) (rule : List Byte → State → Answer)
    (effect : List Byte → State → State) : runBroadcastable c rule effect s = runCommand c rule s := by
  simp [runBroadcastable, h.buffer, h.addressed]

/-- A row also executed by broadcast, on a broadcast packet that runs, is its command's effect (R163). -/
theorem runBroadcastable_broadcast {c : Command} (hb : s.commandBuffer = p :: rest) (hp : p.broadcast = true)
    (hc : p.command = c.code) (hr : broadcastRuns s p = true) (rule : List Byte → State → Answer)
    (effect : List Byte → State → State) :
    runBroadcastable c rule effect s = .next (effect p.payload { s with commandBuffer := rest }) := by
  simp [runBroadcastable, hb, hp, hr, hc]

variable {value : Word} {resolution : Nat}

/-- Set Time Tag's effect on its layout: a resolution of the seven loads value and resolution (R144, R145). -/
theorem setTimeTag_layout (hr : resolution < 256) (s : State) :
    setTimeTag (leBytes 4 value.toNat ++ leBytes 1 resolution) s = if resolution ∈ resolutions
      then { s with timeTag := value, resolution := resolution } else s := by
  obtain ⟨hvalue, hresolution⟩ := wordBytePayload_layout value.isLt hr
  simp only [setTimeTag, hvalue, hresolution, ofNat_toNat_self, List.contains_iff_mem]

/-- Set Time Tag's rule on its layout: the loaded value and resolution, or a refusal (R145). -/
theorem setTimeTagRule_layout (hr : resolution < 256) (s : State) :
    setTimeTagRule (leBytes 4 value.toNat ++ leBytes 1 resolution) s = if resolution ∈ resolutions
      then .reply { s with timeTag := value, resolution := resolution } .ok
        (leBytes 4 value.toNat ++ leBytes 1 resolution)
      else refuse s .badParam := by
  obtain ⟨-, hresolution⟩ := wordBytePayload_layout value.isLt hr
  simp only [setTimeTagRule, hresolution, setTimeTag_layout hr, List.contains_iff_mem]
  split <;> rfl

/-- A started Set Time Tag answers by its rule. -/
theorem exec_setTimeTag (hst : Started .setTimeTag p rest s) (hr : Ready s)
    (hp : p.payload = leBytes 4 value.toNat ++ leBytes 1 resolution) :
    exec .setTimeTag s = answerTo p (setTimeTagRule (leBytes 4 value.toNat ++ leBytes 1 resolution)
      { s with commandBuffer := rest }) := by
  rw [← hp]
  exact (runBroadcastable_started hst ..).trans (runCommand_ready hst hr ⟨nofun, nofun⟩ (hp ▸ rfl) _)

/-- A broadcast Set Time Tag takes effect without a response (R145, R163). -/
theorem exec_setTimeTag_broadcast (hb : s.commandBuffer = p :: rest) (hp : p.broadcast = true) (hc : p.command = 32)
    (hs : s.starting = false) (hpayload : p.payload = leBytes 4 value.toNat ++ leBytes 1 resolution) :
    exec .setTimeTag s = .next (setTimeTag (leBytes 4 value.toNat ++ leBytes 1 resolution)
      { s with commandBuffer := rest }) := by
  have hruns : broadcastRuns s p = true := by
    rw [broadcastRuns, hs, hc, hpayload]
    rfl
  rw [← hpayload]
  exact runBroadcastable_broadcast (c := .setTimeTag) hb hp hc hruns _ _

end

/-- Settles O46: Read Records by its count, the tick, and Set Time Tag addressed and by broadcast. -/
theorem recordsAndTime : Obligations.RecordsAndTime := by
  refine ⟨fun s p rest first count hst hs hc hp => ?_, fun s => rfl, fun s p rest value resolution hr hp hs => ?_⟩
  · rw [exec_readRecords hst hs hp, readRecordsRule_layout first hc]
    refine ⟨fun hbad => ?_, fun hlow hhigh => ?_⟩
    · rw [if_pos hbad]
      rfl
    · rw [if_neg (by omega)]
      rfl
  · intro known
    refine ⟨fun hst hl => ?_, fun hb hbroadcast hcode => ?_⟩
    · rw [exec_setTimeTag hst ⟨hs, hl⟩ hp, setTimeTagRule_layout hr]
      exact ⟨fun (hunknown : resolution ∉ resolutions) => by rw [if_neg hunknown]; rfl,
        fun (hknown : resolution ∈ resolutions) => by rw [if_pos hknown]; rfl⟩
    · rw [exec_setTimeTag_broadcast hb hbroadcast hcode hs hp, setTimeTag_layout hr]
      exact ⟨fun (hunknown : resolution ∉ resolutions) => by rw [if_neg hunknown],
        fun (hknown : resolution ∈ resolutions) => by rw [if_pos hknown]⟩

end Sys2Proof.Machine
end

section
/-! PROOFS. Offers to the Forward Queue and recalls (spec/10 R150 to R153). -/

namespace Sys2Proof.Machine

/-! ### The entry that joins and the entry that makes room (R150, R151) -/

section
variable {s : State} {e old : ForwardEntry} {q before after : List ForwardEntry}

/-- In a queue in sending order an entry joins between those of its own or a higher priority and those of a lower
one (R150). -/
theorem enqueue_eq_filter (h : q.Pairwise fun x y => y.priority ≤ x.priority) :
    enqueue e q = q.filter (fun x => e.priority ≤ x.priority) ++ e :: q.filter (fun x => x.priority < e.priority) := by
  induction q with
  | nil => rfl
  | cons a q ih =>
    obtain ⟨ha, hq⟩ := List.pairwise_cons.1 h
    by_cases hle : e.priority ≤ a.priority
    · have hfirst : enqueue e (a :: q) = a :: enqueue e q := by simp [enqueue, hle]
      simp [hfirst, ih hq, hle, not_lt.2 hle]
    · have hlower : ∀ x ∈ a :: q, x.priority < e.priority :=
        List.forall_mem_cons.2 ⟨not_le.1 hle, fun x hx => (ha x hx).trans_lt (not_le.1 hle)⟩
      have hjoin : enqueue e (a :: q) = e :: a :: q := by simp [enqueue, hle]
      rw [hjoin, List.filter_eq_nil_iff.2 fun x hx => by simpa using hlower x hx,
        List.filter_eq_self.2 fun x hx => by simpa using hlower x hx, List.nil_append]

/-- The priority no entry goes below is the lowest. -/
theorem lowestPriority_eq (hmem : old ∈ q) (hlow : ∀ x ∈ q, old.priority ≤ x.priority) :
    lowestPriority q = old.priority := by
  obtain ⟨x, hx, hp⟩ := lowestPriority_mem (List.ne_nil_of_mem hmem)
  exact le_antisymm (lowestPriority_le hmem) (hp ▸ hlow x hx)

/-- With room an entry joins (R151). -/
theorem offer_of_room (h : s.forwardQueue.length < 64) :
    s.offer e = { s with forwardQueue := enqueue e s.forwardQueue } := if_pos h

/-- At a full queue the oldest entry of the lowest priority makes room for an entry of no lower priority (R151). -/
theorem offer_displaces (hfull : 64 ≤ s.forwardQueue.length) (hq : s.forwardQueue = before ++ old :: after)
    (hlow : ∀ x ∈ s.forwardQueue, old.priority ≤ x.priority) (holdest : ∀ x ∈ before, old.priority < x.priority)
    (he : old.priority ≤ e.priority) :
    s.offer e = State.reportDrop { s with forwardQueue := enqueue e (before ++ after) } old false := by
  have hpassed : ∀ x ∈ before, ¬ (x.priority == old.priority) = true := fun x hx => by
    simpa using (holdest x hx).ne'
  have hfind : s.forwardQueue.find? (fun x => x.priority == old.priority) = some old :=
    List.find?_eq_some_iff_append.2 ⟨beq_self_eq_true _, before, after, hq, fun x hx => by simpa using hpassed x hx⟩
  have herase : s.forwardQueue.eraseP (fun x => x.priority == old.priority) = before ++ after := by
    rw [hq, List.eraseP_append_right _ hpassed]
    exact congrArg (before ++ ·) (List.eraseP_cons_of_pos (beq_self_eq_true _))
  simp only [State.offer, Config.forwardPlaces, not_lt.2 hfull, lowestPriority_eq (by simp [hq]) hlow, he, hfind,
    herase, if_true, if_false]

/-- At a full queue an entry below the lowest priority is dropped (R151). -/
theorem offer_dropped (hfull : 64 ≤ s.forwardQueue.length) (hmem : old ∈ s.forwardQueue)
    (hlow : ∀ x ∈ s.forwardQueue, old.priority ≤ x.priority) (he : e.priority < old.priority) :
    s.offer e = s.reportDrop e true := by
  simp only [State.offer, Config.forwardPlaces, not_lt.2 hfull, lowestPriority_eq hmem hlow, not_le.2 he, if_false]

/-- There is room for an entry when a place is free or an entry of no higher priority waits (R151). -/
theorem hasRoomFor_iff :
    s.hasRoomFor e = true ↔ s.forwardQueue.length < 64 ∨ ∃ x ∈ s.forwardQueue, x.priority ≤ e.priority := by
  rw [State.hasRoomFor, Bool.or_eq_true, decide_eq_true_iff, decide_eq_true_iff]
  refine ⟨fun h => ?_, Or.imp_right fun ⟨x, hx, hle⟩ => (lowestPriority_le hx).trans hle⟩
  by_cases hroom : s.forwardQueue.length < 64
  · exact .inl hroom
  · obtain ⟨x, hx, hp⟩ := lowestPriority_mem (List.ne_nil_of_length_pos (l := s.forwardQueue) (by omega))
    exact .inr ⟨x, hx, hp.trans_le (h.resolve_left hroom)⟩

end

/-- Settles O42: room, an entry displaced, the new entry dropped. -/
theorem offerJoins : Obligations.OfferJoins := by
  intro s e hsorted joined drop
  refine ⟨fun hroom => ?_, fun hfull before old after hq hlow holdest => ⟨fun he => ?_, fun he => ?_⟩⟩
  · rw [offer_of_room hroom, enqueue_eq_filter hsorted]
  · have hleft : (before ++ after).Sublist s.forwardQueue :=
      hq ▸ (List.sublist_cons_self old after).append_left before
    rw [offer_displaces hfull hq hlow holdest he, enqueue_eq_filter (hsorted.sublist hleft)]
    rfl
  · rw [offer_dropped hfull (by simp [hq]) hlow he]
    rfl

/-! ### An offer and a response -/

section
variable (s : State) (e : ForwardEntry) (p : Packet) (x : Status) (d : List Byte)

/-- A drop is reported alike before and after a response. -/
theorem reportDrop_respond (isNew : Bool) :
    (s.respond p x d).reportDrop e isNew = (s.reportDrop e isNew).respond p x d := by
  rw [State.reportDrop, countView_respond, setSticky_respond, raise_respond, State.reportDrop]

/-- An entry is offered alike before and after a response. -/
theorem offer_respond : (s.respond p x d).offer e = (s.offer e).respond p x d := by
  simp only [State.offer, State.respond_forwardQueue, apply_ite (State.respond · p x d)]
  refine if_congr .rfl rfl (if_congr .rfl ?_ (reportDrop_respond ..))
  split
  · next old _ => exact reportDrop_respond { s with forwardQueue := _ } old p x d false
  · rfl

end

/-! ### The checks of a recall (R135, R152) -/

section
variable {s : State} {n : RecordNumber} {r : Record} {m : SlotMark}

/-- No record of the number is held. -/
theorem findRecord_eq_none : s.findRecord n = none ↔ ∀ r ∈ s.records, r.number ≠ n := by
  simp [State.findRecord]

/-- A mark is stale when its frame has moved on (R135). -/
theorem markStale_iff : s.markStale m = true ↔ s.movedOn m := by
  simp [State.markStale, State.movedOn, State.writeSlot]

/-- A frame whose mark has not moved on is not stale (R135). -/
theorem markStale_eq_false (h : ¬ s.movedOn m) : s.markStale m = false :=
  Bool.eq_false_iff.2 fun hm => h (markStale_iff.1 hm)

/-- A record is pending when it is queued or being sent (R152). -/
theorem forwardPending_iff : s.forwardPending n = true ↔
    (∃ e ∈ s.forwardQueue, e.record = n) ∨ ∃ t ∈ s.transmission, t.entry.record = n := by
  simp [State.forwardPending, Option.any_eq_true]

/-- A recall of a record that is not held (R152). -/
theorem recallRecord_absent (h : ∀ r ∈ s.records, r.number ≠ n) : recallRecord n s = .error .absent := by
  rw [recallRecord, findRecord_eq_none.2 h]

/-- A recall of a record neither COMPLETE nor DEGRADED (R152). -/
theorem recallRecord_viewState (hr : s.findRecord n = some r) (hc : r.status ≠ .complete)
    (hd : r.status ≠ .degraded) : recallRecord n s = .error .viewState := by
  simp only [recallRecord, hr]
  exact if_pos ⟨hc, hd⟩

section
variable (hr : s.findRecord n = some r) (hstatus : r.status = .complete ∨ r.status = .degraded) (hm : r.mark = some m)
include hr hstatus hm

/-- A recall of a good record comes down to its slot's mark, to what waits and to the offer (R152). -/
theorem recallRecord_good : recallRecord n s = if s.markStale m then .error .stale
    else if s.forwardPending n then .ok (s, .pending)
    else .ok (s.offer (recallEntry s r m), if s.hasRoomFor (recallEntry s r m) then .queued else .dropped) := by
  have hgood : ¬ (r.status ≠ .complete ∧ r.status ≠ .degraded) := fun ⟨hc, hd⟩ => hstatus.elim hc hd
  simp only [recallRecord, hr, if_neg hgood, hm]

/-- A recall of a frame that has moved on (R152). -/
theorem recallRecord_stale (h : s.movedOn m) : recallRecord n s = .error .stale :=
  (recallRecord_good hr hstatus hm).trans (if_pos (markStale_iff.2 h))

/-- A recall of a frame queued or being sent (R152). -/
theorem recallRecord_pending (h : ¬ s.movedOn m) (hp : s.forwardPending n = true) :
    recallRecord n s = .ok (s, .pending) := by
  simp only [recallRecord_good hr hstatus hm, markStale_eq_false h, hp, Bool.false_eq_true, if_true, if_false]

/-- A recall that offers its entry (R151, R152). -/
theorem recallRecord_offers (h : ¬ s.movedOn m) (hp : s.forwardPending n = false) :
    recallRecord n s = .ok (s.offer (recallEntry s r m),
      if s.hasRoomFor (recallEntry s r m) then .queued else .dropped) := by
  simp only [recallRecord_good hr hstatus hm, markStale_eq_false h, hp, Bool.false_eq_true, if_false]

end

/-- A recall's entry names the record by the number it was found by (R152). -/
theorem recallEntry_eq (hr : s.findRecord n = some r) : recallEntry s r m = ⟨n, r.view,
    (pick s.views r.view).params.priority, m, (pick s.views r.view).params.job.width,
    (pick s.views r.view).params.job.height, (pick s.views r.view).params.job.format⟩ := by
  rw [recallEntry, (mem_of_findRecord hr).2]

end

/-! ### The recall commands (R152, R153) -/

/-- The answer a recall's outcome becomes, with the bytes `extra` behind the disposition (R152, R153). -/
def recallAnswer (extra : List Byte) (s : State) : Except Status (State × Disposition) → Answer
  | .error x => refuse s x
  | .ok (t, d) => .reply t .ok (d.code :: extra)

/-- Recall Frame recalls the number it carries, with no byte behind the disposition (R152). -/
theorem recallFrameRule_layout (n : RecordNumber) (s : State) :
    recallFrameRule (leBytes 4 n.toNat) s = recallAnswer [] s (recallRecord n s) := by
  have hnum : num (leBytes 4 n.toNat) 0 4 = n.toNat := leNat_leBytes (k := 4) n.isLt
  rw [recallFrameRule, hnum, ofNat_toNat_self]
  rcases recallRecord n s with x | ⟨t, d⟩ <;> rfl

/-- Recall Latest recalls its view's last-good record, with the number behind the disposition (R153). -/
theorem recallLatestRule_layout {v : Fin 16} {n : RecordNumber} {s : State} (h : (pick s.views v).lastGood = some n) :
    recallLatestRule (leBytes 1 v.val) s = recallAnswer (leBytes 4 n.toNat) s (recallRecord n s) := by
  simp only [recallLatestRule, below?_view_byte rfl, h]
  rcases recallRecord n s with x | ⟨t, d⟩ <;> rfl

section
variable {s : State} {p : Packet} {rest : List Packet} {n : RecordNumber}

/-- A started Recall Frame answers what its recall answers. -/
theorem exec_recallFrame (hst : Started .recallFrame p rest s) (hr : Ready s) (hp : p.payload = leBytes 4 n.toNat) :
    exec .recallFrame s = answerTo p (recallAnswer [] { s with commandBuffer := rest }
      (recallRecord n { s with commandBuffer := rest })) := by
  rw [← recallFrameRule_layout, ← hp]
  exact runCommand_ready hst hr ⟨nofun, nofun⟩ (hp ▸ rfl) _

/-- A started Recall Latest answers by its rule. -/
theorem exec_recallLatest {v : Nat} (hst : Started .recallLatest p rest s) (hr : Ready s)
    (hp : p.payload = leBytes 1 v) :
    exec .recallLatest s = answerTo p (recallLatestRule (leBytes 1 v) { s with commandBuffer := rest }) :=
  runCommand_byte hst hr ⟨nofun, nofun⟩ rfl hp _

/-- A recall that offers answers QUEUED or DROPPED by whether the entry joins, and the offer is what it leaves besides
its response (R151, R152). -/
theorem answerTo_offer (e : ForwardEntry) (d : Disposition) (extra : List Byte) :
    answerTo p (recallAnswer extra { s with commandBuffer := rest }
        (.ok (State.offer { s with commandBuffer := rest } e, d)))
      = .next ((s.answered p rest .ok (d.code :: extra)).offer e) :=
  congrArg Host.Outcome.next (offer_respond ..).symm

end

/-- Settles O47: Recall Latest's own checks, then the checks both recalls share and the offer. -/
theorem recalled : Obligations.Recalled := by
  intro s p rest hready
  refine ⟨fun hst v hv hp => ⟨fun h => ?_, fun u hu hlast => ?_⟩, fun i n extra hcommand => ?_⟩
  · rw [exec_recallLatest hst hready hp, recallLatestRule, below?_view_byte_eq_none hv h]
    rfl
  · simp only [exec_recallLatest hst hready hp, recallLatestRule, below?_view_byte hu, hlast]
    rfl
  · have hexec : exec i s = answerTo p (recallAnswer extra { s with commandBuffer := rest }
        (recallRecord n { s with commandBuffer := rest })) := by
      rcases hcommand with ⟨rfl, hst, hp, rfl⟩ | ⟨rfl, hst, rfl, u, hp, hlast⟩
      · exact exec_recallFrame hst hready hp
      · rw [exec_recallLatest hst hready hp]
        exact congrArg (answerTo p) (recallLatestRule_layout hlast)
    have hanswer {o : Except Status (State × Disposition)} (ho : recallRecord n { s with commandBuffer := rest } = o) :
        exec i s = answerTo p (recallAnswer extra { s with commandBuffer := rest } o) := ho ▸ hexec
    refine ⟨fun habsent => hanswer (recallRecord_absent habsent), fun r hr =>
      ⟨fun hc hd => hanswer (recallRecord_viewState hr hc hd), fun m hstatus hm => ?_⟩⟩
    intro waiting w e joins
    have hentry : recallEntry { s with commandBuffer := rest } r m = e := recallEntry_eq hr
    have hoffer (h : ¬ s.movedOn m) (hw : ¬ waiting) : exec i s = .next ((s.answered p rest .ok
        ((if s.hasRoomFor e then Disposition.queued else .dropped).code :: extra)).offer e) := by
      have hpending : s.forwardPending n = false := Bool.eq_false_iff.2 fun hp => hw (forwardPending_iff.1 hp)
      rw [hanswer (recallRecord_offers hr hstatus hm h hpending), hentry]
      exact answerTo_offer ..
    refine ⟨fun h => hanswer (recallRecord_stale hr hstatus hm h),
      fun h hw => hanswer (recallRecord_pending hr hstatus hm h (forwardPending_iff.2 hw)),
      fun h hw hj => ?_, fun h hw hj => ?_⟩
    · rw [hoffer h hw, if_pos (hasRoomFor_iff.2 hj)]
      rfl
    · rw [hoffer h hw, if_neg fun hroom => hj (hasRoomFor_iff.1 hroom)]
      rfl

end Sys2Proof.Machine
end

section
/-! PROOFS. Pause, resume, flush and the Uplink Arbiter (spec/10 R154 to R159). -/

namespace Sys2Proof.Machine

/-! ### Pause, resume and flush (R157, R158) -/

/-- A started command without operands answers by its rule. -/
theorem runCommand_empty {c : Command} {s : State} {p : Packet} {rest : List Packet} (hst : Started c p rest s)
    (hr : Ready s) (ho : c ≠ .loadOpen ∧ c ≠ .streamOpen) (hl : c.lengthFits [] = true) (hp : p.payload = [])
    (rule : List Byte → State → Answer) :
    runCommand c rule s = answerTo p (rule [] { s with commandBuffer := rest }) := by
  rw [← hp] at hl ⊢
  exact runCommand_ready hst hr ho hl rule

/-- A flush cuts a whole transmission short and leaves one already cut short as it is (R158; log 16). -/
theorem Transmission.flush_eq (t : Transmission) :
    t.flush = if t.truncation = .whole then { t with truncation := .flushed } else t := by
  cases h : t.truncation <;> simp only [Transmission.flush, h, reduceCtorEq, if_true, if_false]

/-- Settles O48, command by command. -/
theorem pauseResumeFlush : Obligations.PauseResumeFlush := by
  intro s p rest hready hp
  refine ⟨fun hst => runCommand_empty hst hready ⟨nofun, nofun⟩ rfl hp _,
    fun hst => runCommand_empty hst hready ⟨nofun, nofun⟩ rfl hp _, fun hst => ?_⟩
  rw [← funext Transmission.flush_eq]
  exact runCommand_empty hst hready ⟨nofun, nofun⟩ rfl hp _

/-! ### The places of the arbiter's order (R154) -/

section
variable {s : State}

/-- A relay packet is ready when one is waiting (R168). -/
theorem relayReady_iff : relayReady s = true ↔ s.relayWaiting := by
  rw [relayReady, Bool.or_eq_true, decide_eq_true_iff]
  exact or_congr .rfl (by simp)

/-- The first place: a response (R154, R164). -/
theorem arbitrate_response {r : Response} {rest : List Response} (h : s.responses = r :: rest) :
    arbitrate s = State.send { s with responses := rest } (.response r) := by
  simp only [arbitrate, h]

/-- The second place: a relay packet (R154, R168). -/
theorem arbitrate_relay (h : s.responses = []) (hw : s.relayWaiting) : arbitrate s = sendRelay s := by
  simp only [arbitrate, h, relayReady_iff.2 hw, if_true]

/-- The third place: a notice (R154, R165). -/
theorem arbitrate_notice (h : s.responses = []) (hw : ¬ s.relayWaiting) {n : Notice} {rest : List Notice}
    (hn : s.notices = n :: rest) : arbitrate s = State.send { s with notices := rest } (.notice n) := by
  simp only [arbitrate, h, if_neg (relayReady_iff.not.2 hw), hn]

/-- The fourth and fifth places: the image packets (R154). -/
theorem arbitrate_image (h : ImagesNext s) : arbitrate s = sendImage s := by
  obtain ⟨hresponses, hrelay, hnotices⟩ := h
  simp only [arbitrate, hresponses, if_neg (relayReady_iff.not.2 hrelay), hnotices]

/-! ### The current transmission (R156 to R159) -/

section
variable {t : Transmission} (ht : s.transmission = some t)
include ht

/-- A truncating end packet goes also while paused (R157, R158). -/
theorem sendImage_truncated (h : t.truncation ≠ .whole) : sendImage s = sendEnd t true s := by
  simp only [sendImage, ht, if_pos h]

/-- A whole transmission sends its next line, and its end packet after the last (R156). -/
theorem sendImage_goes_on (h : t.truncation = .whole) (hp : s.paused = false) :
    sendImage s = if t.nextLine < t.entry.height then sendLine t s else sendEnd t false s := by
  simp only [sendImage, ht, h, hp, ne_eq, not_true_eq_false, Bool.false_eq_true, if_false]

end

/-- Paused with no truncating end packet pending, the port stays idle (R157). -/
theorem sendImage_paused (hp : s.paused = true) (hwhole : ∀ t ∈ s.transmission, t.truncation = .whole) :
    sendImage s = s.idlePort := by
  cases ht : s.transmission with
  | none => simp only [sendImage, ht, hp, if_true]
  | some t => simp only [sendImage, ht, hwhole t ht, hp, ne_eq, not_true_eq_false, if_true, if_false]

/-- With none current and the uplink not paused, a new transmission is sought (R155). -/
theorem sendImage_starts (ht : s.transmission = none) (hp : s.paused = false) :
    sendImage s = startTransmission s := by
  simp only [sendImage, ht, hp, Bool.false_eq_true, if_false]

/-- The end of a transmission, counted as forwarded unless Soft Reset cut it short (R156, R158, R159). -/
theorem sendEnd_eq (t : Transmission) (truncated : Bool) :
    sendEnd t truncated s = { s with
      outputSlots := upd s.outputSlots t.entry.mark.slot fun x => { x with held := false }
      views := if t.truncation = .reset then s.views else upd s.views t.entry.view fun w =>
        { w with counters := { w.counters with forwarded := satInc w.counters.forwarded } }
      transmission := none
      uplinkPort := some (uplinkBytes s.nodeAddress (.endPacket t.entry.record t.linesSent truncated)) } := by
  simp only [sendEnd]
  split <;> rfl

end

/-- Settles O49: the first three places, and the idle port of a paused uplink. -/
theorem arbiterOrder : Obligations.ArbiterOrder := fun _ =>
  ⟨fun _ _ h => congrArg Host.Outcome.next (arbitrate_response h),
    fun h hw => congrArg Host.Outcome.next (arbitrate_relay h hw),
    fun h hw _ _ hn => congrArg Host.Outcome.next (arbitrate_notice h hw hn),
    fun h hp hwhole => congrArg Host.Outcome.next ((arbitrate_image h).trans (sendImage_paused hp hwhole))⟩

/-! ### A new transmission (R155) -/

/-- The views with the stale entries `es` counted. -/
def State.staleCounted (s : State) (es : List ForwardEntry) : Vector View 16 :=
  tabulate fun v =>
    let w := pick s.views v
    { w with counters := { w.counters with
      stale := Nat.repeat satInc (es.countP fun e => e.view == v) w.counters.stale } }

/-- Stale entries counted one after another are counted for each view. -/
theorem foldl_countStale_eq (s : State) (es : List ForwardEntry) :
    es.foldl countStale s = { s with views := s.staleCounted es } := by
  induction es using List.reverseRecOn with
  | nil =>
    have hviews : s.staleCounted [] = s.views := tabulate_eq fun _ => rfl
    rw [hviews]
    rfl
  | append_singleton es e ih =>
    have hviews : upd (s.staleCounted es) e.view (fun w =>
        { w with counters := { w.counters with stale := satInc w.counters.stale } })
          = s.staleCounted (es ++ [e]) := by
      refine pick_ext fun v => ?_
      simp only [State.staleCounted, pick_upd, pick_tabulate, List.countP_append, List.countP_singleton, beq_iff_eq]
      by_cases h : v = e.view
      · simp only [h, if_true]
        rfl
      · simp only [h, Ne.symm h, if_false, Nat.add_zero]
    rw [List.foldl_append, ih, ← hviews]
    rfl

section
variable {s : State} {e : ForwardEntry}

/-- An entry is stale when its record is not held or its frame has moved on (R155). -/
theorem entryStale_iff :
    s.entryStale e = true ↔ (∀ r ∈ s.records, r.number ≠ e.record) ∨ s.movedOn e.mark := by
  rw [State.entryStale, Bool.or_eq_true, Option.isNone_iff_eq_none, findRecord_eq_none, markStale_iff]

/-- An entry whose record is held and whose frame stands passes (R155). -/
theorem entryStale_eq_false {r : Record} (hr : s.findRecord e.record = some r) (h : ¬ s.movedOn e.mark) :
    s.entryStale e = false := by
  rw [State.entryStale, hr, markStale_eq_false h]
  rfl

section
variable {dropped rest waiting : List ForwardEntry} (hstale : ∀ x ∈ dropped, s.entryStale x = true)
include hstale

/-- A queue of stale entries is dropped whole, and the port stays idle (R155). -/
theorem startTransmission_empties (hq : s.forwardQueue = dropped) :
    startTransmission s
      = State.idlePort { s with views := s.staleCounted dropped, forwardQueue := [] } := by
  subst hq
  have htake : s.forwardQueue.takeWhile s.entryStale = s.forwardQueue := List.takeWhile_eq_self_iff.2 hstale
  have hdrop : s.forwardQueue.dropWhile s.entryStale = [] := List.dropWhile_eq_nil_iff.2 hstale
  simp only [startTransmission, htake, hdrop, foldl_countStale_eq]

/-- The first entry that passes begins a transmission, the stale ones before it dropped and counted (R155). -/
theorem startTransmission_begins (hq : s.forwardQueue = dropped ++ e :: waiting) (he : s.entryStale e = false) :
    startTransmission s
      = beginTransmission e { s with views := s.staleCounted dropped, forwardQueue := waiting } := by
  have htake : s.forwardQueue.takeWhile s.entryStale = dropped := by
    rw [hq, List.takeWhile_append_of_pos hstale, List.takeWhile_cons_of_neg (by simp [he]), List.append_nil]
  have hdrop : s.forwardQueue.dropWhile s.entryStale = e :: waiting := by
    rw [hq, List.dropWhile_append_of_pos hstale, List.dropWhile_cons_of_neg (by simp [he])]
  simp only [startTransmission, htake, hdrop, foldl_countStale_eq]

end

/-- A new transmission holds its slot and sends its record packet (R155). -/
theorem beginTransmission_eq {r : Record} (hr : s.findRecord e.record = some r) :
    beginTransmission e s = { s with
      outputSlots := upd s.outputSlots e.mark.slot fun x => { x with held := true }
      transmission := some ⟨e, 0, 0, .whole⟩
      uplinkPort := some (uplinkBytes s.nodeAddress (.record r)) } := by
  simp only [beginTransmission, hr]
  rfl

end

/-- Settles O50: the current transmission by its truncation and its lines, and a new one past the stale entries. -/
theorem transmissions : Obligations.Transmissions := by
  intro s himages
  have hexec {x : State} (h : sendImage s = x) : exec .uplinkPortReady s = .next x :=
    congrArg Host.Outcome.next ((arbitrate_image himages).trans h)
  refine ⟨fun t ht => ?_, fun ht hp dropped rest hq hstale => ?_⟩
  · intro e ending
    have hcut (h : t.truncation ≠ .whole) := (sendImage_truncated ht h).trans (sendEnd_eq t true)
    have hwhole (h : t.truncation = .whole) (hp : s.paused = false) := sendImage_goes_on ht h hp
    refine ⟨fun h hp hline => hexec ((hwhole h hp).trans (if_pos hline)), fun h hp hline => hexec ?_,
      fun h => hexec ?_, fun h => hexec ?_⟩
    · rw [hwhole h hp, if_neg (not_lt.2 hline), sendEnd_eq, h]
      rfl
    · rw [hcut (by rw [h]; nofun), h]
      rfl
    · rw [hcut (by rw [h]; nofun), h]
      rfl
  · have hdropped : ∀ x ∈ dropped, s.entryStale x = true := fun x hx => entryStale_iff.2 (hstale x hx)
    refine ⟨fun hrest => hexec ?_, fun e waiting r hrest hr hmoved => hexec ?_⟩
    · subst hrest
      exact (sendImage_starts ht hp).trans (startTransmission_empties hdropped (hq.trans (List.append_nil dropped)))
    · subst hrest
      rw [sendImage_starts ht hp, startTransmission_begins hdropped hq (entryStale_eq_false hr hmoved)]
      exact beginTransmission_eq hr

end Sys2Proof.Machine
end

section
/-! PROOFS. The Command Interpreter: its queue, its first checks and the packets that execute no command (spec/11 R163,
R171, R172). -/

namespace Sys2Proof.Machine

/-- Settles O1, by the step's own two cases. -/
theorem stepRunsTheFront : Obligations.StepRunsTheFront :=
  ⟨fun c rest s => step_cons (s := { s with pending := c :: rest }) rfl, fun s hempty => by simp only [step, hempty]⟩

/-! ### Packets that execute no command (R163) -/

section
variable {s : State} {p : Packet} {rest : List Packet}

/-- A byte names no command exactly when it is 0 or lies past the 38 codes (R172). -/
theorem namesCommand_eq_false {b : Byte} : namesCommand b = false ↔ b = 0 ∨ 39 ≤ b.toNat := by
  rw [namesCommand, decide_eq_false_iff_not, ← BitVec.toNat_inj, show (0 : Byte).toNat = 0 from rfl]
  omega

/-- UNKNOWN_COMMAND takes a packet for this node that names no command (R163; log 9). -/
theorem exec_unknownCommand_taken (hb : s.commandBuffer = p :: rest) (hp : p.broadcast = false)
    (hc : namesCommand p.command = false) (hroom : s.responses.length < 4) :
    exec .unknownCommand s = .next (s.answered p rest (if s.starting then .starting else .unknownCommand) []) := by
  simp only [exec, execUnknownCommand, hb]
  exact if_pos ⟨hp, hc, hroom⟩

/-- A broadcast packet is not executed while STARTING, nor unless it is a Set Time Tag or a Soft Reset of the length
R171 fixes (R163). -/
theorem broadcastRuns_eq_false : broadcastRuns s p = false ↔ s.starting = true ∨ (p.command ≠ 32 ∧ p.command ≠ 6)
    ∨ (p.command = 32 ∧ p.payload.length ≠ 5) ∨ (p.command = 6 ∧ p.payload ≠ []) := by
  have htime : Command.setTimeTag.lengthFits p.payload = true ↔ p.payload.length = 5 := beq_iff_eq
  have hreset : Command.softReset.lengthFits p.payload = true ↔ p.payload = [] :=
    beq_iff_eq.trans List.length_eq_zero_iff
  have hruns : broadcastRuns s p = true ↔ s.starting = false
      ∧ ((p.command = 32 ∧ p.payload.length = 5) ∨ (p.command = 6 ∧ p.payload = [])) := by
    rw [← htime, ← hreset]
    simp only [broadcastRuns, Bool.and_eq_true, Bool.or_eq_true, Bool.not_eq_true', beq_iff_eq, Command.code]
  rw [← Bool.not_eq_true, hruns, ← Bool.not_eq_true]
  by_cases h32 : p.command = 32
  · simp only [h32]
    tauto
  · tauto

/-- BROADCAST_IGNORED removes a broadcast packet that is not executed (R163). -/
theorem exec_broadcastIgnored_taken (hb : s.commandBuffer = p :: rest) (hp : p.broadcast = true)
    (hr : broadcastRuns s p = false) : exec .broadcastIgnored s = .next { s with commandBuffer := rest } := by
  simp only [exec, execBroadcastIgnored, hb]
  exact if_pos ⟨hp, hr⟩

end

/-- Settles O4, by what the two rows take from the head of the Command Buffer. -/
theorem noCommandExecuted : Obligations.NoCommandExecuted := fun _ _ _ hb =>
  ⟨fun hp hc hroom => exec_unknownCommand_taken hb hp (namesCommand_eq_false.2 hc) hroom,
    fun hp hr => exec_broadcastIgnored_taken hb hp (broadcastRuns_eq_false.2 hr)⟩

/-! ### The first checks (R163, R171) -/

section
variable {i : Instr} {c : Command} {s : State} {p : Packet} {rest : List Packet}

/-- A row that starts no packet, and executes no broadcast packet, changes nothing (log 1). -/
theorem exec_idle (hi : i.command? = some c) (hs : ∀ p rest, ¬ Started c p rest s)
    (hb : ∀ p rest, s.commandBuffer = p :: rest → p.broadcast = true → p.command = c.code → broadcastRuns s p = false) :
    exec i s = .next s := by
  rcases exec_command hi with ⟨rule, h⟩ | ⟨rule, effect, h⟩
  · rw [h]
    exact runCommand_idle hs rule
  · rw [h]
    rcases runBroadcastable_cases c rule effect s with e | ⟨p, rest, hbuffer, hp, hr, hc, -⟩
    · exact e.trans (runCommand_idle hs rule)
    · exact absurd hr (by rw [hb p rest hbuffer hp hc]; nofun)

/-- With a packet for this node at the head, a row that does not start it changes nothing. -/
theorem exec_idle_addressed (hi : i.command? = some c) (hb : s.commandBuffer = p :: rest) (hp : p.broadcast = false)
    (h : p.command ≠ c.code ∨ 4 ≤ s.responses.length) : exec i s = .next s := by
  refine exec_idle hi (fun q more hst => ?_) fun q more hq hbroadcast => ?_
  · obtain ⟨rfl, rfl⟩ := List.cons.inj (hb.symm.trans hst.buffer)
    exact h.elim (· hst.code) (not_le.2 hst.room)
  · obtain ⟨rfl, rfl⟩ := List.cons.inj (hb.symm.trans hq)
    exact absurd hbroadcast (by rw [hp]; nofun)

/-- With a broadcast packet at the head, a row that does not execute it changes nothing. -/
theorem exec_idle_broadcast (hi : i.command? = some c) (hb : s.commandBuffer = p :: rest) (hp : p.broadcast = true)
    (h : p.command = c.code → broadcastRuns s p = false) : exec i s = .next s := by
  refine exec_idle hi (fun q more hst => ?_) fun q more hq _ hcode => ?_
  · obtain ⟨rfl, rfl⟩ := List.cons.inj (hb.symm.trans hst.buffer)
    exact absurd hst.addressed (by rw [hp]; nofun)
  · obtain ⟨rfl, rfl⟩ := List.cons.inj (hb.symm.trans hq)
    exact h hcode

/-- Only Set Time Tag and Soft Reset are executed by broadcast, each at its own length and not while STARTING (R163). -/
theorem broadcastRuns_code (hc : p.command = c.code) (h : (c ≠ .setTimeTag ∧ c ≠ .softReset) ∨ s.starting = true
    ∨ (c = .setTimeTag ∧ p.payload.length ≠ 5) ∨ (c = .softReset ∧ p.payload ≠ [])) : broadcastRuns s p = false := by
  have hcode (d : Command) : p.command = d.code ↔ c = d := by
    rw [hc]
    exact ⟨Command.code_injective c d, congrArg Command.code⟩
  have htime : p.command = 32 ↔ c = .setTimeTag := hcode .setTimeTag
  have hreset : p.command = 6 ↔ c = .softReset := hcode .softReset
  rw [broadcastRuns_eq_false, htime, hreset, ne_eq, ne_eq, htime, hreset]
  tauto

/-- The commands not served while STARTING (R163). -/
theorem runsWhileStarting_eq_false : c.runsWhileStarting = false ↔ c ≠ .identify ∧ c ≠ .getStatus := by
  cases c <;> decide

/-- While STARTING a started command but Identify and Get Status is answered STARTING (R163). -/
theorem exec_starting (hi : i.command? = some c) (h : Started c p rest s) (hs : s.starting = true)
    (hc : c.runsWhileStarting = false) : exec i s = .next (s.answered p rest .starting []) := by
  obtain ⟨rule, hexec⟩ := exec_started hi h
  rw [hexec, checked, if_pos (by simp [hs, hc])]
  rfl

/-- A started command that proceeds, with a payload of another length than R171 fixes, is answered BAD_LENGTH. -/
theorem exec_badLength (hi : i.command? = some c) (h : Started c p rest s) (hc : c.Proceeds s)
    (hl : c.lengthFits p.payload = false) : exec i s = .next (s.answered p rest .badLength []) := by
  obtain ⟨rule, hexec⟩ := exec_started hi h
  have hchecked := checked_proceeds (payload := p.payload) (rule := rule) (s := { s with commandBuffer := rest }) hc
  rw [hexec, hchecked, hl]
  rfl

/-- A length fixed for a command in a table whose every line R171 gives. -/
theorem payloadLength_of_mem {table : List (Command × Nat)} {n : Nat}
    (htable : ∀ x ∈ table, x.1.payloadLength = some x.2) (h : (c, n) ∈ table) : c.payloadLength = some n :=
  htable (c, n) h

/-- A payload of another length than the fixed one does not fit. -/
theorem lengthFits_eq {n : Nat} (h : c.payloadLength = some n) (payload : List Byte) :
    c.lengthFits payload = (payload.length == n) := by
  rw [Command.lengthFits, h]

/-- The four commands whose payload holds an on-off byte at offset `k` before anything else decides, refuse another byte
than 0 and 1 there BAD_PARAM (R171). -/
theorem exec_switched {k n : Nat} (hi : i.command? = some c) (h : (c, n, k) ∈ [(Command.setCamera, 15, 6),
      (.cameraEnable, 2, 1), (.readDescriptor, 2, 1), (.engineAbort, 1, 0)]) :
    c.payloadLength = some n ∧ ∃ rule, (∀ s, exec i s = runCommand c rule s)
      ∧ ∀ payload s, switch? (num payload k 1) = none → rule payload s = refuse s .badParam := by
  simp only [List.mem_cons, Prod.mk.injEq, List.not_mem_nil, or_false] at h
  rcases h with ⟨rfl, rfl, rfl⟩ | ⟨rfl, rfl, rfl⟩ | ⟨rfl, rfl, rfl⟩ | ⟨rfl, rfl, rfl⟩
  · cases i with
    | setCamera =>
      exact ⟨rfl, setCameraRule, fun _ => rfl, fun payload s hswitch => by simp [setCameraRule, hswitch]⟩
    | _ => cases hi
  · cases i with
    | cameraEnable =>
      exact ⟨rfl, cameraEnableRule, fun _ => rfl, fun payload s hswitch => by simp [cameraEnableRule, hswitch]⟩
    | _ => cases hi
  · cases i with
    | readDescriptor =>
      exact ⟨rfl, readDescriptorRule, fun _ => rfl, fun payload s hswitch => by simp [readDescriptorRule, hswitch]⟩
    | _ => cases hi
  · cases i with
    | engineAbort =>
      exact ⟨rfl, engineAbortRule, fun _ => rfl, fun payload s hswitch => by simp [engineAbortRule, hswitch]⟩
    | _ => cases hi

end

/-- Settles O2, by the checks of R163 in their order: what starts no packet, STARTING, the length, the switch byte. -/
theorem interpreterChecks : Obligations.InterpreterChecks := by
  intro i c s hi
  refine ⟨fun hempty => ?_, fun p rest hb hp h => exec_idle_addressed hi hb hp h, fun p rest hb hp h => ?_,
    fun p rest hst hs hidentify hstatus => ?_, fun p rest n k hst hc hmem hlen hbyte => ?_,
    fun p rest n hst hc hmem hlen => ?_⟩
  · exact exec_idle hi (fun p rest hst => absurd (hempty.symm.trans hst.buffer) nofun)
      fun p rest hb => absurd (hempty.symm.trans hb) nofun
  · refine exec_idle_broadcast hi hb hp fun hcode => broadcastRuns_code hcode ?_
    tauto
  · exact exec_starting hi hst hs (runsWhileStarting_eq_false.2 ⟨hidentify, hstatus⟩)
  · obtain ⟨hfixed, rule, hexec, hrule⟩ := exec_switched hi hmem
    have hfits : c.lengthFits p.payload = true := by rw [lengthFits_eq hfixed, hlen, beq_self_eq_true]
    rw [hexec, runCommand_proceeds hst hc hfits, hrule _ _ (switch?_eq_none.2 hbyte)]
    rfl
  · have hfixed : c.payloadLength = some n := payloadLength_of_mem (by decide) hmem
    exact exec_badLength hi hst hc (by rw [lengthFits_eq hfixed]; exact beq_eq_false_iff_ne.2 hlen)

end Sys2Proof.Machine
end

section
/-! PROOFS. One response for each executed packet (spec/11 R163, R170). -/

namespace Sys2Proof.Machine

/-! ### What the interpreter holds (R163) -/

/-- What the interpreter holds of a state: the model's queue, the Command Buffer and the Response Queue. -/
structure InterpreterParts where
  pending : List Instr
  commands : List Packet
  responses : List Response

/-- The parts of a state that only the interpreter itself, and Soft Reset, changes. -/
def State.interpreterParts (s : State) : InterpreterParts := ⟨s.pending, s.commandBuffer, s.responses⟩

section
variable (s : State)

@[simp] theorem interpreterParts_updPort (c : Fin 4) (f : Port → Port) :
    (s.updPort c f).interpreterParts = s.interpreterParts := rfl
@[simp] theorem interpreterParts_setSticky (f : StickyFlag) :
    (s.setSticky f).interpreterParts = s.interpreterParts := rfl
@[simp] theorem interpreterParts_countView (v : Fin 16) (f : ViewCounters → ViewCounters) :
    (s.countView v f).interpreterParts = s.interpreterParts := rfl
@[simp] theorem interpreterParts_releaseSource (i : Fin 12) :
    (s.releaseSource i).interpreterParts = s.interpreterParts := rfl
@[simp] theorem interpreterParts_updRecord (n : RecordNumber) (f : Record → Record) :
    (s.updRecord n f).interpreterParts = s.interpreterParts := rfl
@[simp] theorem interpreterParts_finalise (n : RecordNumber) (x : RecordStatus) :
    (s.finalise n x).interpreterParts = s.interpreterParts := rfl

/-- A notice. -/
@[simp] theorem interpreterParts_raise (n : Notice) : (s.raise n).interpreterParts = s.interpreterParts := by
  obtain ⟨q, k, i, h⟩ := raise_only s n
  rw [h]
  rfl

/-- A view that leaves its waiting state. -/
@[simp] theorem interpreterParts_settle (v : Fin 16) : (s.settle v).interpreterParts = s.interpreterParts := by
  rw [settle_eq]
  rfl

/-- An offer to the Forward Queue. -/
@[simp] theorem interpreterParts_offer (e : ForwardEntry) : (s.offer e).interpreterParts = s.interpreterParts := by
  obtain ⟨fq, vs, q, k, i, h⟩ := offer_only s e
  rw [h]
  rfl

/-- Queued jobs removed. -/
@[simp] theorem interpreterParts_removeJobs (gone : Job → Bool) :
    (s.removeJobs gone).interpreterParts = s.interpreterParts := by
  rw [removeJobs_eq]
  rfl

/-- Latched descriptors marked. -/
@[simp] theorem interpreterParts_markAccessed (ds : List (Fin 64)) :
    (s.markAccessed ds).interpreterParts = s.interpreterParts := by
  rw [markAccessed_eq]
  rfl

/-! ### The engine's next start, in an Engine Abort (R82 to R90, R95) -/

/-- A record created (R140). -/
@[simp] theorem interpreterParts_createRecord (j : Job) :
    (createRecord j s).interpreterParts = s.interpreterParts := by
  simp only [createRecord]
  split
  · rw [interpreterParts_raise]
    rfl
  · rfl

/-- A job skipped (R84). -/
@[simp] theorem interpreterParts_skipJob (j : Job) (n : RecordNumber) :
    (skipJob j n s).interpreterParts = s.interpreterParts := by
  simp [skipJob]

/-- A job that faults (R89). -/
@[simp] theorem interpreterParts_faultJob (j : Job) (n : RecordNumber) (x : TableFailure) :
    (faultJob j n x s).interpreterParts = s.interpreterParts := by
  simp [faultJob]

/-- A job past the held test, whichever way its mesh decides (R85 to R90). -/
@[simp] theorem interpreterParts_latchJob (j : Job) (n : RecordNumber) (x : Fin 52) :
    (latchJob j n x s).interpreterParts = s.interpreterParts := by
  have hbegin (l : Latched) (t : TableLatch) (m : Mesh) (u : State) :
      (beginStages j n x l t m u).interpreterParts = u.interpreterParts := rfl
  simp only [latchJob]
  repeat' split
  all_goals simp only [hbegin, interpreterParts_faultJob, interpreterParts_updRecord, interpreterParts_markAccessed]

/-- The engine's start of the head job (R82). -/
theorem interpreterParts_startHead {s t : State} (h : startHead s = .ok t) :
    t.interpreterParts = s.interpreterParts := by
  unfold startHead at h
  split at h
  · next j rest _ _ =>
    have hcreated : (createRecord j { s with jobs := rest }).interpreterParts = s.interpreterParts :=
      interpreterParts_createRecord ..
    simp only [startJob] at h
    split at h
    · cases h
    · split at h <;> cases h
      · rw [interpreterParts_skipJob, hcreated]
      · rw [interpreterParts_latchJob, hcreated]
  · cases h
    rfl
  · cases h
    rfl

end

/-! ### A command's own rule (R163) -/

/-- An answer that carries result data only with OK or DONE. -/
def Answer.dataFits : Answer → Bool
  | .reply _ .ok _ => true
  | .reply _ .done _ => true
  | .reply _ _ data => data.isEmpty
  | .stop _ => true

/-- An answer to a command in state `s` that leaves what the interpreter holds and carries data only with OK or DONE. -/
structure Answer.Orderly (s : State) (a : Answer) : Prop where
  parts : (a.left s).interpreterParts = s.interpreterParts
  data : a.dataFits = true

/-- A command's rule whose every answer is orderly. -/
def Orderly (rule : List Byte → State → Answer) : Prop := ∀ payload s, (rule payload s).Orderly s

section
variable {s t : State} {status : Status} {data : List Byte}

/-- A refusal carries no data. -/
theorem orderly_refuse (h : t.interpreterParts = s.interpreterParts) (status : Status) :
    (refuse t status).Orderly s := ⟨h, by cases status <;> rfl⟩

/-- Data comes with OK or DONE. -/
theorem Answer.Orderly.data_eq_nil (h : (Answer.reply t status data).Orderly s) (hok : status ≠ .ok)
    (hdone : status ≠ .done) : data = [] := by
  have := h.data
  cases status with
  | ok => exact absurd rfl hok
  | done => exact absurd rfl hdone
  | _ => exact List.isEmpty_iff.1 this

/-- The checks of R163 answer in order, or the rule answers. -/
theorem Orderly.checked {rule : List Byte → State → Answer} (h : Orderly rule) (c : Command) (payload : List Byte)
    (s : State) : (checked c payload rule s).Orderly s := by
  rcases checked_cases c payload rule s with ⟨-, -, e⟩ | ⟨-, -, e⟩ | ⟨-, -, e⟩ | ⟨-, e⟩ | ⟨-, e⟩ <;> rw [e]
  · exact ⟨rfl, rfl⟩
  · exact ⟨rfl, rfl⟩
  · exact ⟨rfl, rfl⟩
  · exact ⟨rfl, rfl⟩
  · exact h payload s

end

/-- The commands of the cameras, the descriptors and the protection window (spec/01, spec/02). -/
theorem orderly_configuration : ∀ rule ∈ [setCameraRule, cameraEnableRule, setBlackLevelRule, writeDescriptorRule,
    readDescriptorRule, clearAccessedRule, lockRule lockNext, lockRule unlockNext, lockRule lockDownNext, setWindowRule,
    protectionLockRule], Orderly rule := by
  simp only [List.forall_mem_cons]
  refine ⟨?_, ?_, ?_, ?_, ?_, ?_, ?_, ?_, ?_, ?_, ?_, nofun⟩ <;> intro payload s
  all_goals
    simp only [setCameraRule, cameraEnableRule, enableCamera, disableCamera, setBlackLevelRule, writeDescriptorRule,
      readDescriptorRule, clearAccessedRule, lockRule, setWindowRule, protectionLockRule]
    repeat' split
  all_goals exact ⟨rfl, rfl⟩

/-- The commands of the Load Unit (spec/03). -/
theorem orderly_loading : ∀ rule ∈ [loadOpenRule, loadDataRule, loadCommitRule, loadCancelRule, streamOpenRule,
    streamDataRule, streamCancelRule, readTableRule], Orderly rule := by
  simp only [List.forall_mem_cons]
  refine ⟨?_, ?_, ?_, ?_, ?_, ?_, ?_, ?_, nofun⟩ <;> intro payload s
  all_goals
    simp only [loadOpenRule, loadDataRule, loadCommitRule, loadCancelRule, streamOpenRule, streamDataRule,
      streamCancelRule, readTableRule]
    repeat' split
  all_goals exact ⟨rfl, rfl⟩

/-- The commands of the View Table but View Disable, and those that read the records and set the time (spec/04,
spec/09). -/
theorem orderly_views : ∀ rule ∈ [writeViewRule, readViewRule, viewActivateRule, viewHoldRule, readRecordsRule,
    setTimeTagRule], Orderly rule := by
  simp only [List.forall_mem_cons]
  refine ⟨?_, ?_, ?_, ?_, ?_, ?_, nofun⟩ <;> intro payload s
  all_goals
    simp only [writeViewRule, readViewRule, viewActivateRule, viewHoldRule, readRecordsRule, setTimeTagRule, setTimeTag]
    repeat' split
  all_goals exact ⟨rfl, rfl⟩

/-- The commands of the uplink but the recalls, and of the management but Soft Reset (spec/10, spec/11). -/
theorem orderly_management : ∀ rule ∈ [uplinkPauseRule, uplinkResumeRule, uplinkFlushRule, identifyRule,
    getStatusRule, clearStatusRule, readCountersRule, setNoticeMaskRule], Orderly rule := by
  simp only [List.forall_mem_cons]
  refine ⟨?_, ?_, ?_, ?_, ?_, ?_, ?_, ?_, nofun⟩ <;> intro payload s
  all_goals
    simp only [uplinkPauseRule, uplinkResumeRule, uplinkFlushRule, identifyRule, getStatusRule, clearStatusRule,
      readCountersRule, setNoticeMaskRule]
    repeat' split
  all_goals exact ⟨rfl, rfl⟩

/-- View Disable removes queued jobs (R70). -/
theorem orderly_viewDisable : Orderly viewDisableRule := fun payload s => by
  simp only [viewDisableRule, disableView]
  split
  · exact ⟨rfl, rfl⟩
  · next v _ =>
    refine ⟨Eq.trans ?_ (interpreterParts_removeJobs s fun j => j.view == v), rfl⟩
    simp only [viewStateReply, Answer.left]
    split <;> rfl

/-- A recall at most offers an entry to the Forward Queue (R152). -/
theorem interpreterParts_recallRecord {n : RecordNumber} {s t : State} {d : Disposition}
    (h : recallRecord n s = .ok (t, d)) : t.interpreterParts = s.interpreterParts := by
  rcases recallRecord_cases h with rfl | ⟨r, -, m, rfl, -⟩
  · rfl
  · exact interpreterParts_offer ..

/-- Recall Frame (R152). -/
theorem orderly_recallFrame : Orderly recallFrameRule := fun payload s => by
  simp only [recallFrameRule]
  split
  · exact orderly_refuse rfl _
  · next h => exact ⟨interpreterParts_recallRecord h, rfl⟩

/-- Recall Latest (R153). -/
theorem orderly_recallLatest : Orderly recallLatestRule := fun payload s => by
  simp only [recallLatestRule]
  split
  · exact orderly_refuse rfl _
  · split
    · exact orderly_refuse rfl _
    · split
      · exact orderly_refuse rfl _
      · next h => exact ⟨interpreterParts_recallRecord h, rfl⟩

/-- Engine Abort, with the engine's next start (R95). -/
theorem orderly_engineAbort : Orderly engineAbortRule := fun payload s => by
  simp only [engineAbortRule]
  split
  · exact orderly_refuse rfl _
  · split
    · exact ⟨rfl, rfl⟩
    · next flush _ _ t ht =>
      refine ⟨(interpreterParts_startHead ht).trans ?_, rfl⟩
      rw [abortEngine_eq]
      rfl

/-! ### Every row of the interpreter -/

section
variable {i : Instr} {c : Command} {s t : State} {p : Packet} {rest : List Packet}

/-- Every command but Soft Reset runs a rule whose answers are orderly. -/
theorem exec_orderly (hi : i.command? = some c) (hc : c ≠ .softReset) (h : Started c p rest s) :
    ∃ rule, Orderly rule ∧ exec i s = runCommand c rule s := by
  cases i with
  | identify => cases hi; exact ⟨identifyRule, orderly_management _ (by simp), rfl⟩
  | getStatus => cases hi; exact ⟨getStatusRule, orderly_management _ (by simp), rfl⟩
  | clearStatus => cases hi; exact ⟨clearStatusRule, orderly_management _ (by simp), rfl⟩
  | readCounters => cases hi; exact ⟨readCountersRule, orderly_management _ (by simp), rfl⟩
  | setNoticeMask => cases hi; exact ⟨setNoticeMaskRule, orderly_management _ (by simp), rfl⟩
  | softReset => cases hi; exact absurd rfl hc
  | setCamera => cases hi; exact ⟨setCameraRule, orderly_configuration _ (by simp), rfl⟩
  | cameraEnable => cases hi; exact ⟨cameraEnableRule, orderly_configuration _ (by simp), rfl⟩
  | setBlackLevel => cases hi; exact ⟨setBlackLevelRule, orderly_configuration _ (by simp), rfl⟩
  | writeDescriptor => cases hi; exact ⟨writeDescriptorRule, orderly_configuration _ (by simp), rfl⟩
  | readDescriptor => cases hi; exact ⟨readDescriptorRule, orderly_configuration _ (by simp), rfl⟩
  | clearAccessedDescriptor => cases hi; exact ⟨clearAccessedRule, orderly_configuration _ (by simp), rfl⟩
  | lockDescriptor => cases hi; exact ⟨lockRule lockNext, orderly_configuration _ (by simp), rfl⟩
  | unlockDescriptor => cases hi; exact ⟨lockRule unlockNext, orderly_configuration _ (by simp), rfl⟩
  | lockDownDescriptor => cases hi; exact ⟨lockRule lockDownNext, orderly_configuration _ (by simp), rfl⟩
  | setProtectionWindow => cases hi; exact ⟨setWindowRule, orderly_configuration _ (by simp), rfl⟩
  | protectionLock => cases hi; exact ⟨protectionLockRule, orderly_configuration _ (by simp), rfl⟩
  | loadOpen => cases hi; exact ⟨loadOpenRule, orderly_loading _ (by simp), rfl⟩
  | loadData => cases hi; exact ⟨loadDataRule, orderly_loading _ (by simp), rfl⟩
  | loadCommit => cases hi; exact ⟨loadCommitRule, orderly_loading _ (by simp), rfl⟩
  | loadCancel => cases hi; exact ⟨loadCancelRule, orderly_loading _ (by simp), rfl⟩
  | streamOpen => cases hi; exact ⟨streamOpenRule, orderly_loading _ (by simp), rfl⟩
  | streamData => cases hi; exact ⟨streamDataRule, orderly_loading _ (by simp), rfl⟩
  | streamCancel => cases hi; exact ⟨streamCancelRule, orderly_loading _ (by simp), rfl⟩
  | readTable => cases hi; exact ⟨readTableRule, orderly_loading _ (by simp), rfl⟩
  | writeView => cases hi; exact ⟨writeViewRule, orderly_views _ (by simp), rfl⟩
  | readView => cases hi; exact ⟨readViewRule, orderly_views _ (by simp), rfl⟩
  | viewActivate => cases hi; exact ⟨viewActivateRule, orderly_views _ (by simp), rfl⟩
  | viewHold => cases hi; exact ⟨viewHoldRule, orderly_views _ (by simp), rfl⟩
  | viewDisable => cases hi; exact ⟨viewDisableRule, orderly_viewDisable, rfl⟩
  | engineAbort => cases hi; exact ⟨engineAbortRule, orderly_engineAbort, rfl⟩
  | setTimeTag => cases hi; exact ⟨setTimeTagRule, orderly_views _ (by simp), runBroadcastable_started h ..⟩
  | readRecords => cases hi; exact ⟨readRecordsRule, orderly_views _ (by simp), rfl⟩
  | recallFrame => cases hi; exact ⟨recallFrameRule, orderly_recallFrame, rfl⟩
  | recallLatest => cases hi; exact ⟨recallLatestRule, orderly_recallLatest, rfl⟩
  | uplinkPause => cases hi; exact ⟨uplinkPauseRule, orderly_management _ (by simp), rfl⟩
  | uplinkResume => cases hi; exact ⟨uplinkResumeRule, orderly_management _ (by simp), rfl⟩
  | uplinkFlush => cases hi; exact ⟨uplinkFlushRule, orderly_management _ (by simp), rfl⟩
  | _ => cases hi

/-- Soft Reset's row, started: its checks and then its rule (R163, R170). -/
theorem exec_softReset_started (h : Started .softReset p rest s) : exec .softReset s
    = answerTo p (checked .softReset p.payload softResetRule { s with commandBuffer := rest }) :=
  (runBroadcastable_started h softResetRule fun _ => softReset).trans (runCommand_started h softResetRule)

/-- A started Soft Reset is refused without an effect on what the interpreter holds, or executed (R163, R170). -/
theorem checked_softReset_cases (payload : List Byte) (s : State) :
    (∃ u status, status ≠ .ok ∧ u.interpreterParts = s.interpreterParts
      ∧ checked .softReset payload softResetRule s = refuse u status)
    ∨ checked .softReset payload softResetRule s = accept (softReset s) := by
  rcases checked_cases .softReset payload softResetRule s with
    ⟨-, -, e⟩ | ⟨-, hruns, -⟩ | ⟨-, hopens, -⟩ | ⟨-, e⟩ | ⟨-, e⟩
  · exact .inl ⟨s, .starting, nofun, rfl, e⟩
  · exact absurd hruns nofun
  · exact absurd hopens (not_or.2 ⟨nofun, nofun⟩)
  · exact .inl ⟨s, .badLength, nofun, rfl, e⟩
  · exact .inr e

/-- Soft Reset leaves the model's queue and empties both queues of the interpreter (R170). -/
theorem interpreterParts_softReset (s : State) : (softReset s).interpreterParts = ⟨s.pending, [], []⟩ := by
  simp only [State.interpreterParts, softReset, abortRecord]
  split <;> rfl

/-- An orderly answer to packet `p` places one response behind those that stood. -/
theorem respond_of_orderly {a : Answer} (ha : a.Orderly { s with commandBuffer := rest })
    (h : answerTo p a = .next t) : ∃ status data, t.responses = s.responses ++ [⟨p.tag, p.command, status, data⟩]
      ∧ t.commandBuffer = rest ∧ (status ≠ .ok → status ≠ .done → data = []) ∧ t.pending = s.pending := by
  cases a with
  | stop f => cases h
  | reply u status data =>
    cases h
    obtain ⟨hpending, hcommands, hresponses⟩ := InterpreterParts.mk.inj ha.parts
    exact ⟨status, data, congrArg (· ++ _) hresponses, hcommands, ha.data_eq_nil, hpending⟩

end

/-- Settles O5: every rule answers in order, and Soft Reset's only response stands in the emptied queue. -/
theorem oneResponseEach : Obligations.OneResponseEach := by
  intro i c s t p rest hi hst h
  by_cases hc : c = .softReset
  · subst hc
    obtain rfl : i = .softReset := by cases i with
      | softReset => rfl
      | _ => cases hi
    rw [exec_softReset_started hst] at h
    rcases checked_softReset_cases p.payload { s with commandBuffer := rest } with ⟨u, status, hne, hu, e⟩ | e
    · rw [e] at h
      obtain ⟨hpending, hcommands, hresponses⟩ := InterpreterParts.mk.inj hu
      cases h
      refine ⟨status, [], ?_, ?_, fun _ _ => rfl, hpending⟩
      · rw [if_neg fun hok => hne hok.2]
        exact congrArg (· ++ _) hresponses
      · rw [if_neg fun hok => hne hok.2]
        exact hcommands
    · rw [e] at h
      obtain ⟨hpending, hcommands, hresponses⟩ :=
        InterpreterParts.mk.inj (interpreterParts_softReset { s with commandBuffer := rest })
      cases h
      exact ⟨.ok, [], congrArg (· ++ _) hresponses, hcommands, fun _ _ => rfl, hpending⟩
  · obtain ⟨rule, hrule, hexec⟩ := exec_orderly hi hc hst
    rw [hexec, runCommand_started hst] at h
    simpa only [hc, false_and, if_false] using respond_of_orderly (hrule.checked c p.payload _) h

end Sys2Proof.Machine
end

section
/-! PROOFS. Soft Reset, addressed to this node and by broadcast (spec/11 R170). -/

namespace Sys2Proof.Machine

/-- The record of the job in flight is finalised as ABORTED with the tag as it stood; the other records stand (R142). -/
theorem abortRecord_eq (s : State) : abortRecord s = { s with
    records := s.records.map fun r =>
      if ∃ f ∈ s.flight, r.number = f.record then { r with status := .aborted, tagFinal := some s.timeTag }
      else r } := by
  unfold abortRecord
  split
  · next f hf =>
    refine congrArg (fun rs => { s with records := rs }) (List.map_congr_left fun r _ => ?_)
    simp only [hf, Option.mem_def, Option.some.injEq, exists_eq_left']
  · next hidle =>
    have hstand : ∀ r : Record, ¬ ∃ f ∈ s.flight, r.number = f.record := by simp [hidle]
    simp only [hstand, if_false, List.map_id']

/-- A port at Soft Reset (R20). -/
theorem Port.softReset_eq (p : Port) : p.softReset = { p with
    state := .off, lastSequence := none, counters := ⟨0, 0, 0, 0, 0, 0, 0, 0, 0⟩ } := rfl

/-- A view at Soft Reset (R73, R78). -/
theorem View.softReset_eq (w : View) : w.softReset = { w with
    state := .disabled, ringPointer := 0, doubleIndex := 0, decimation := 0, lastOdometer := none, burst := 0
    counters := ⟨0, 0, 0, 0, 0, 0, 0, 0, 0, 0, 0⟩ } := rfl

section
variable {s : State} {p : Packet} {rest : List Packet}

/-- A Soft Reset packet for this node is executed in every load state, with its response in the emptied queue (R170). -/
theorem exec_softReset_addressed (h : Started .softReset p rest s) (hs : s.starting = false) (hp : p.payload = []) :
    exec .softReset s = .next ((softReset { s with commandBuffer := rest }).respond p .ok []) :=
  (runBroadcastable_started h softResetRule fun _ => softReset).trans
    (runCommand_proceeds h (proceeds_always hs rfl) (by rw [hp]; rfl) softResetRule)

/-- A broadcast Soft Reset is executed without a response (R163, R170). -/
theorem exec_softReset_broadcast (hb : s.commandBuffer = p :: rest) (hp : p.broadcast = true) (hc : p.command = 6)
    (hs : s.starting = false) (hpayload : p.payload = []) :
    exec .softReset s = .next (softReset { s with commandBuffer := rest }) := by
  have hruns : broadcastRuns s p = true := by
    rw [broadcastRuns, hs, hc, hpayload]
    rfl
  exact runBroadcastable_broadcast (c := .softReset) hb hp hc hruns softResetRule fun _ => softReset

/-- Soft Reset's row on a packet of the right length: its effect, and its response unless the packet is broadcast. -/
theorem exec_softReset (hb : s.commandBuffer = p :: rest) (hc : p.command = 6) (hpayload : p.payload = [])
    (hs : s.starting = false) (hroom : p.broadcast = true ∨ s.responses.length < 4) :
    exec .softReset s = .next { softReset { s with commandBuffer := rest } with
      responses := if p.broadcast then [] else [⟨p.tag, p.command, .ok, []⟩] } := by
  cases hp : p.broadcast with
  | true => exact exec_softReset_broadcast hb hp hc hs hpayload
  | false =>
    have hst : Started .softReset p rest s := ⟨hb, hp, hc, hroom.resolve_left (by rw [hp]; nofun)⟩
    exact exec_softReset_addressed hst hs hpayload

end

/-- Settles O7, block by block. -/
theorem softResetEffects : Obligations.SoftResetEffects := by
  intro s p rest hb hc hpayload hs hroom
  refine ⟨_, exec_softReset hb hc hpayload hs hroom, rfl, fun c => ?_, fun i => ?_, fun v => ?_, ?_, rfl, ?_⟩
  · exact (pick_updAll ..).trans (Port.softReset_eq _)
  · exact pick_updAll ..
  · exact (pick_updAll ..).trans (View.softReset_eq _)
  · exact congrArg State.records (abortRecord_eq { s with commandBuffer := rest })
  · simp only [softReset, abortRecord_eq]
    rfl

end Sys2Proof.Machine
end

section
/-! PROOFS. Uplink packets, packed lines and the frame record, byte for byte (spec/11 R173, R175). -/

namespace Sys2Proof.Machine

/-! ### Packets (R173) -/

/-- An uplink packet of a kind and a payload: the CRC-32 is over all but the sync. -/
theorem uplinkBytes_layout {node kind : Byte} {packet : UplinkPacket} {payload : List Byte} (hkind : kind = packet.kind)
    (hpayload : payload = packet.payload) : uplinkBytes node packet
      = [0xE6, 0x1A] ++ ([node, kind] ++ leBytes 2 payload.length ++ payload)
        ++ leBytes 4 (crc32 ([node, kind] ++ leBytes 2 payload.length ++ payload)).toNat := by
  subst hkind hpayload
  rfl

/-! ### Lines (R156, R173) -/

/-- The low 8 and the high 2 of ten bits. -/
theorem low_high_toNat (x : BitVec 10) :
    (x.setWidth 8).toNat = x.toNat % 256 ∧ (x.extractLsb' 8 2).toNat = x.toNat / 256 := by
  have hx := x.isLt
  rw [BitVec.toNat_setWidth, BitVec.extractLsb'_toNat, Nat.shiftRight_eq_div_pow]
  omega

/-- Four pairs of bits in a byte, the first lowest. -/
theorem append_pairs_toNat (a b c d : BitVec 2) :
    (a ++ b ++ c ++ d).toNat = d.toNat + 4 * c.toNat + 16 * b.toNat + 64 * a.toNat := by
  revert a b c d
  decide

/-- A CODE10 cell in range carries its code. -/
theorem carriedBits_toNat {c : Cell} (h : c.toNat < 1024) : (carriedBits c).toNat = c.toNat := by
  rw [carriedBits_of_lt h, BitVec.toNat_setWidth]
  exact Nat.mod_eq_of_lt h

/-- Four codes in five bytes: the low 8 bits of each, and their high 2 bits in the fifth (R173). -/
theorem packLine_code10_four {c0 c1 c2 c3 : Cell} (more : List Cell) (h0 : c0.toNat < 1024) (h1 : c1.toNat < 1024)
    (h2 : c2.toNat < 1024) (h3 : c3.toNat < 1024) : ∃ b0 b1 b2 b3 b4 : Byte,
      packLine .code10 (c0 :: c1 :: c2 :: c3 :: more) = b0 :: b1 :: b2 :: b3 :: b4 :: packLine .code10 more
      ∧ b0.toNat + 256 * (b4.toNat % 4) = c0.toNat ∧ b1.toNat + 256 * (b4.toNat / 4 % 4) = c1.toNat
      ∧ b2.toNat + 256 * (b4.toNat / 16 % 4) = c2.toNat ∧ b3.toNat + 256 * (b4.toNat / 64) = c3.toNat := by
  obtain ⟨hlow0, hhigh0⟩ := low_high_toNat (carriedBits c0)
  obtain ⟨hlow1, hhigh1⟩ := low_high_toNat (carriedBits c1)
  obtain ⟨hlow2, hhigh2⟩ := low_high_toNat (carriedBits c2)
  obtain ⟨hlow3, hhigh3⟩ := low_high_toNat (carriedBits c3)
  refine ⟨_, _, _, _, _, rfl, ?_⟩
  rw [append_pairs_toNat, hlow0, hlow1, hlow2, hlow3, hhigh0, hhigh1, hhigh2, hhigh3, carriedBits_toNat h0,
    carriedBits_toNat h1, carriedBits_toNat h2, carriedBits_toNat h3]
  omega

/-- A CODE10 line of whole groups of four takes five bytes a group. -/
theorem packLine_code10_length {cells : List Cell} (h : cells.length % 4 = 0) :
    4 * (packLine .code10 cells).length = 5 * cells.length := by
  change 4 * (packCode10 cells).length = _
  induction cells using packCode10.induct with
  | case1 c0 c1 c2 c3 rest ih =>
    simp only [List.length_cons] at h ⊢
    simp only [packCode10, List.length_cons]
    have := ih (by omega)
    omega
  | case2 cells hfew =>
    match cells with
    | [] => rfl
    | [a] => cases h
    | [a, b] => cases h
    | [a, b, c] => cases h
    | a :: b :: c :: d :: rest => exact absurd rfl (hfew a b c d rest)

/-- A CODE8 line carries each code in range in its byte. -/
theorem packLine_code8_toNat {cells : List Cell} (h : ∀ c ∈ cells, c.toNat < 256) :
    (packLine .code8 cells).map BitVec.toNat = cells.map BitVec.toNat := by
  rw [packLine, List.map_map]
  refine List.map_congr_left fun c hc => ?_
  have hlt := h c hc
  simp only [Function.comp, packCode8, if_pos hlt, BitVec.toNat_setWidth]
  exact Nat.mod_eq_of_lt hlt

/-! ### Frame records (R175) -/

/-- A byte is the one byte of its number. -/
theorem leBytes_byte (b : Byte) : leBytes 1 b.toNat = [b] :=
  congrArg (fun x => [x]) (ofNat_toNat_self b)

/-- A number at the front of a packet reads back when it fits its bytes. -/
theorem num_leBytes_front {k n : Nat} (h : n < 256 ^ k) (rest : List Byte) : num (leBytes k n ++ rest) 0 k = n := by
  have hfront := num_append_front (leBytes k n) rest
  rw [leBytes_length] at hfront
  exact hfront.trans (leNat_leBytes h)

/-- Numbers of given widths, one after another: each is a width in bytes and a value. -/
def fieldBytes (fs : List (Nat × Nat)) : List Byte := fs.flatMap fun f => leBytes f.1 f.2

/-- From an offset on, a packet carries the fields one after another. -/
def Carries (bytes : List Byte) : Nat → List (Nat × Nat) → Prop
  | _, [] => True
  | off, (k, n) :: fs => num bytes off k = n ∧ Carries bytes (off + k) fs

/-- Fields that fit their widths read back, whatever stands before and behind them. -/
theorem carries_fieldBytes {fs : List (Nat × Nat)} (h : ∀ f ∈ fs, f.2 < 256 ^ f.1) (front tail : List Byte) :
    Carries (front ++ (fieldBytes fs ++ tail)) front.length fs := by
  induction fs generalizing front with
  | nil => trivial
  | cons f fs ih =>
    obtain ⟨hf, hfs⟩ := List.forall_mem_cons.1 h
    have hbytes : fieldBytes (f :: fs) ++ tail = leBytes f.1 f.2 ++ (fieldBytes fs ++ tail) := List.append_assoc ..
    rw [hbytes]
    refine ⟨(num_append_skip front _ 0 f.1).trans (num_leBytes_front hf _), ?_⟩
    have hrest := ih hfs (front ++ leBytes f.1 f.2)
    rwa [List.append_assoc, List.length_append, leBytes_length] at hrest

/-- The 42 bytes before the histogram part of a frame record, field by field (R175). -/
def recordFields (r : Record) : List (Nat × Nat) :=
  [(4, r.number.toNat), (1, r.view.val), (1, r.camera.val), (2, r.sequence.toNat), (4, r.odometer.toNat),
    (1, r.level.val), (1, if r.marker then 1 else 0), (2, r.exposure.toNat), (1, r.repairs), (1, r.status.code.toNat),
    (1, partsPresent r), (2, r.flags.toNat), (4, r.tagStart.toNat),
    (4, match r.tagFinal with | some t => t.toNat | none => 0),
    (1, match r.mark with | some m => m.slot.val + 12 | none => 0),
    (2, match r.mark with | some m => m.generation.toNat | none => 0),
    (2, match r.statistics with | some x => x.mean | none => 0),
    (4, match r.statistics with | some x => x.saturated | none => 0),
    (4, match r.statistics with | some x => x.outOfField | none => 0)]

/-- A frame record is its fields and then its histogram part. -/
theorem recordBytes_eq (r : Record) : recordBytes r = fieldBytes (recordFields r) ++ histogramBytes r.histogram := by
  have hmarker : leBytes 1 (if r.marker then 1 else 0) = [flagByte r.marker] := by cases r.marker <;> rfl
  have hstatus : leBytes 1 r.status.code.toNat = [r.status.code] := leBytes_byte _
  unfold recordBytes recordFields fieldBytes
  simp only [List.flatMap_cons, List.flatMap_nil, List.append_assoc, List.nil_append]
  rw [hmarker, hstatus]
  cases r.tagFinal <;> cases r.mark <;> cases r.statistics <;> rfl

/-- The fields before the histogram part take 42 bytes. -/
theorem fieldBytes_recordFields_length (r : Record) : (fieldBytes (recordFields r)).length = 42 := by
  simp [fieldBytes, recordFields]

/-- The fields of a record whose numbers lie in their ranges fit their widths. -/
theorem recordFields_fit {r : Record} (hrepairs : r.repairs < 256)
    (hstatistics : ∀ x ∈ r.statistics, x.mean < 65536 ∧ x.saturated < 2 ^ 32 ∧ x.outOfField < 2 ^ 32) :
    ∀ f ∈ recordFields r, f.2 < 256 ^ f.1 := by
  have hmarker : (if r.marker then 1 else 0) < 256 := by split <;> decide
  have hparts : partsPresent r < 256 := by
    unfold partsPresent
    repeat' split
    all_goals decide
  simp only [recordFields, List.forall_mem_cons]
  refine ⟨r.number.isLt, ?_, ?_, r.sequence.isLt, r.odometer.isLt, ?_, hmarker, r.exposure.isLt, hrepairs,
    r.status.code.isLt, hparts, r.flags.isLt.trans (by decide), r.tagStart.isLt, ?_, ?_, ?_, ?_, ?_, ?_, nofun⟩
  · omega
  · omega
  · omega
  · cases r.tagFinal with
    | none => decide
    | some t => exact t.isLt
  · cases r.mark with
    | none => decide
    | some m => exact Nat.add_lt_add_right m.slot.isLt 12 |>.trans (by decide)
  · cases r.mark with
    | none => decide
    | some m => exact m.generation.isLt
  · cases hx : r.statistics with
    | none => decide
    | some x => exact (hstatistics x hx).1
  · cases hx : r.statistics with
    | none => decide
    | some x => exact (hstatistics x hx).2.1
  · cases hx : r.statistics with
    | none => decide
    | some x => exact (hstatistics x hx).2.2

/-- Zero bytes read as zero, wherever and however many. -/
theorem num_replicate_zero (n off k : Nat) : num (List.replicate n 0) off k = 0 := by
  have hzero (m : Nat) : leNat (List.replicate m 0) = 0 := by
    induction m with
    | zero => rfl
    | succ m ih => rw [List.replicate_succ, leNat, ih]; rfl
  rw [num, List.drop_replicate, List.take_replicate, hzero]

/-- The number at place `i` among numbers of `k` bytes each. -/
theorem num_flatMap_leBytes {k : Nat} {xs : List Nat} {i : Nat} (hi : i < xs.length) (hx : xs[i] < 256 ^ k) :
    num (xs.flatMap (leBytes k)) (k * i) k = xs[i] := by
  induction xs generalizing i with
  | nil => cases hi
  | cons x xs ih =>
    rw [List.flatMap_cons]
    cases i with
    | zero => exact num_leBytes_front hx _
    | succ i =>
      have hskip := num_append_skip (leBytes k x) (xs.flatMap (leBytes k)) (k * i) k
      rw [leBytes_length] at hskip
      rw [Nat.mul_succ, Nat.add_comm, hskip]
      exact ih (Nat.lt_of_succ_lt_succ hi) hx

/-- A histogram part takes 64 bytes, present or not. -/
theorem histogramBytes_length (h : Option (Vector Nat 16)) : (histogramBytes h).length = 64 := by
  cases h with
  | none => rfl
  | some b => simp [histogramBytes, List.length_flatMap]

/-- The counts of the histogram part, from byte 42 of a frame record on. -/
theorem num_recordBytes_histogram {r : Record} (h : ∀ b ∈ r.histogram, ∀ i : Fin 16, pick b i < 2 ^ 32) (i : Fin 16) :
    num (recordBytes r) (42 + 4 * i.val) 4 = (r.histogram.map fun b => pick b i).getD 0 := by
  rw [recordBytes_eq, ← fieldBytes_recordFields_length r, num_append_skip]
  cases hr : r.histogram with
  | none => exact num_replicate_zero ..
  | some b => exact num_flatMap_leBytes (xs := b.toList) (by simp) (h b hr i)

/-- Settles O51: packets by their kind, lines by their format, and the frame record field by field. -/
theorem uplinkLayouts : Obligations.UplinkLayouts := by
  refine ⟨fun node kind packet payload h => ?_,
    fun c0 c1 c2 c3 more h0 h1 h2 h3 => packLine_code10_four more h0 h1 h2 h3,
    fun cells h => packLine_code10_length h, fun cells h => packLine_code8_toNat h,
    fun r hrepairs hstatistics hhistogram => ?_⟩
  · have hmem : kind = packet.kind ∧ payload = packet.payload := by
      cases packet with
      | notice n => cases n <;> exact Prod.mk.inj (List.mem_singleton.1 h)
      | _ => exact Prod.mk.inj (List.mem_singleton.1 h)
    exact uplinkBytes_layout hmem.1 hmem.2
  · have hfields := carries_fieldBytes (recordFields_fit hrepairs hstatistics) [] (histogramBytes r.histogram)
    rw [List.nil_append, ← recordBytes_eq] at hfields
    obtain ⟨h0, h4, h5, h6, h8, h12, h13, h14, h16, h17, h18, h19, h21, h25, h29, h30, h32, h34, h38, -⟩ := hfields
    refine ⟨?_, h0, h4, h5, h6, h8, h12, h13, h14, h16, h17, h18, h19, h21, h25, h29, h30, h32, h34, h38, fun i => ?_⟩
    · rw [recordBytes_eq, List.length_append, fieldBytes_recordFields_length, histogramBytes_length]
    · refine (num_recordBytes_histogram hhistogram i).trans ?_
      cases r.histogram <;> rfl

end Sys2Proof.Machine
end

section
/-! PROOFS. Downlink packets, relay bytes and notices (spec/11 R160 to R162, R165, R168). -/

namespace Sys2Proof.Machine

/-! ### Downlink packets (R160, R172) -/

/-- The bytes of a downlink packet by its layout, with its CRC-32 (R172). -/
def Inbound.bytes (i : Inbound) : List Byte :=
  let body := [i.destination, i.tag, i.command] ++ leBytes 2 i.payload.length ++ i.payload
  [0xE6, 0x19] ++ body ++ leBytes 4 (crc32 body).toNat

/-- A packet of the layout passes the checks of R160 as itself. -/
theorem parseDownlink_bytes {i : Inbound} (h : i.payload.length ≤ 1040) : parseDownlink i.bytes = some i := by
  have hlength : leNat (leBytes 2 i.payload.length) = i.payload.length :=
    leNat_leBytes (h.trans_lt (by decide))
  simp only [leBytes] at hlength
  simp [Inbound.bytes, leBytes, parseDownlink, hlength, Config.maxPayload, h]

/-- A packet that passes the checks of R160 is of the layout. -/
theorem eq_bytes_of_parseDownlink {packet : List Byte} {i : Inbound} (h : parseDownlink packet = some i) :
    i.payload.length ≤ 1040 ∧ packet = i.bytes := by
  unfold parseDownlink at h
  split at h
  · next s0 s1 destination tag command l0 l1 rest =>
    dsimp only at h
    split at h
    · next hchecks =>
      cases h
      obtain ⟨rfl, rfl, hmax, hlength, hcrc⟩ := hchecks
      have hpayload : (rest.take (leNat [l0, l1])).length = leNat [l0, l1] := by
        rw [List.length_take]
        omega
      have hbytes : leBytes 2 (leNat [l0, l1]) = [l0, l1] := leBytes_leNat [l0, l1]
      refine ⟨hpayload.trans_le hmax, ?_⟩
      simp only [Inbound.bytes, hpayload, hbytes]
      simp [hcrc]
    · cases h
  · cases h

/-- Settles O52: a packet passes R160 exactly when it is of the layout, and goes by its destination. -/
theorem downlinkDispatched : Obligations.DownlinkDispatched := by
  intro s _ frame buffered
  refine ⟨fun destination tag command payload hlen => ?_, fun packet hpacket => ?_⟩
  · have hparse : parseDownlink (frame destination tag command payload) = some ⟨destination, tag, command, payload⟩ :=
      parseDownlink_bytes (i := ⟨destination, tag, command, payload⟩) hlen
    simp only [exec, execDownlinkPacket, hparse]
    rfl
  · have hparse : parseDownlink packet = none := by
      cases h : parseDownlink packet with
      | none => rfl
      | some i =>
        obtain ⟨hlen, hbytes⟩ := eq_bytes_of_parseDownlink h
        exact absurd ⟨i.destination, i.tag, i.command, i.payload, hlen, hbytes⟩ hpacket
    simp only [exec, execDownlinkPacket, hparse]
    rfl

/-! ### Relay bytes and notices (R165, R168) -/

section
variable {s : State}

/-- A relay byte joins the buffer while it has room (R168). -/
theorem exec_relayByte_room (b : Byte) (h : s.relayBuffer.length < 256) : exec (.relayByte b) s = .next { s with
    relayBuffer := s.relayBuffer ++ [b], relayInterval := .running } :=
  congrArg Host.Outcome.next (if_pos h)

/-- A relay byte is discarded and counted at 256 bytes (R168; log 18). -/
theorem exec_relayByte_full (b : Byte) (h : 256 ≤ s.relayBuffer.length) : exec (.relayByte b) s = .next { s with
    relayInterval := .running
    sticky := withBit s.sticky StickyFlag.relayOverrun.bit
    interfaceCounters := { s.interfaceCounters with
      relayBytesDropped := satInc s.interfaceCounters.relayBytesDropped } } :=
  congrArg Host.Outcome.next (if_neg (not_lt.2 h))

/-- The interval's end, with a byte waiting or without (R168; log 4). -/
theorem exec_relayIdleTimeout_eq : exec .relayIdleTimeout s
    = .next (if s.relayBuffer = [] then s else { s with relayInterval := .elapsed }) := by
  simp only [exec, execRelayIdleTimeout, List.isEmpty_iff]

/-- A masked notice is not raised (R165). -/
theorem raise_masked {n : Notice} (h : s.noticeMask.getLsbD n.kindCode = false) : s.raise n = s := by
  rw [State.raise, h]
  rfl

/-- An enabled notice joins the queue where there is room (R165). -/
theorem raise_queued {n : Notice} (h : s.noticeMask.getLsbD n.kindCode = true) (hroom : s.notices.length < 16) :
    s.raise n = { s with notices := s.notices ++ [n] } := by
  rw [State.raise, if_pos h]
  exact if_pos hroom

/-- An enabled notice is dropped and counted at 16 (R165). -/
theorem raise_lost {n : Notice} (h : s.noticeMask.getLsbD n.kindCode = true) (hfull : 16 ≤ s.notices.length) :
    s.raise n = { s with
      sticky := withBit s.sticky StickyFlag.noticeLost.bit
      interfaceCounters := { s.interfaceCounters with
        noticesLost := satInc s.interfaceCounters.noticesLost } } := by
  rw [State.raise, if_pos h]
  exact if_neg (not_lt.2 hfull)

end

/-- Settles O54: relay bytes by the buffer's room, the interval by its bytes, notices by the mask and the room. -/
theorem relayAndNotices : Obligations.RelayAndNotices := by
  refine ⟨fun s b => ⟨exec_relayByte_room b, exec_relayByte_full b, fun hbytes => ?_, fun hempty => ?_⟩, ?_⟩
  · rw [exec_relayIdleTimeout_eq, if_neg hbytes]
    exact ⟨_, rfl, .inr ⟨hbytes, rfl⟩, rfl⟩
  · rw [exec_relayIdleTimeout_eq, if_pos hempty]
  · intro s n kind
    have hkind : kind = n.kindCode := by cases n <;> rfl
    rw [hkind]
    exact ⟨raise_masked, raise_queued, raise_lost⟩

end Sys2Proof.Machine
end

section
/-! PROOFS. Identify, the Status Word, the counters and the notice mask (spec/11 R165 to R167; spec/01 R18, spec/04
R76). -/

namespace Sys2Proof.Machine

/-! ### Identify and the Status Word (R166, R167) -/

section
variable {s : State} {p : Packet} {rest : List Packet}

/-- Identify and Get Status, the two commands served while STARTING, proceed in every state (R43, R163). -/
theorem proceeds_served {c : Command} (hc : c = .identify ∨ c = .getStatus) : c.Proceeds s := by
  refine ⟨.inr hc, ?_⟩
  rcases hc with rfl | rfl <;> cases s.loadUnit <;> simp

/-- Identify in every state (R167). -/
theorem exec_identify (h : Started .identify p rest s) (hp : p.payload = []) : exec .identify s = .next
    (s.answered p rest .ok ([69, 67, 45, 54, 52, 1, s.nodeAddress, 4, 16, 64] ++ leBytes 4 131072)) :=
  runCommand_proceeds h (proceeds_served (.inl rfl)) (by rw [hp]; rfl) identifyRule

/-- Get Status in every state (R166). -/
theorem exec_getStatus (h : Started .getStatus p rest s) (hp : p.payload = []) :
    exec .getStatus s = .next (s.answered p rest .ok (statusWord s)) :=
  runCommand_proceeds h (proceeds_served (.inr rfl)) (by rw [hp]; rfl) getStatusRule

/-- Flags and a mask: the masked ones are cleared. -/
theorem getLsbD_cleared {w : Nat} (x : BitVec w) {mask : Nat} (i : Nat) :
    (x &&& ~~~ BitVec.ofNat w mask).getLsbD i = (x.getLsbD i && !mask.testBit i) := by
  by_cases hi : i < w
  · simp only [BitVec.getLsbD_and, BitVec.getLsbD_not, BitVec.getLsbD_ofNat, hi, decide_true, Bool.true_and]
  · simp [BitVec.getLsbD_of_ge x i (not_lt.1 hi)]

/-- The bits of a mask that fits. -/
theorem getLsbD_ofNat_of_lt {w mask : Nat} (h : mask < 2 ^ w) (i : Nat) :
    (BitVec.ofNat w mask).getLsbD i = mask.testBit i := by
  rw [BitVec.getLsbD_ofNat]
  by_cases hi : i < w
  · simp [hi]
  · simp [hi, Nat.testBit_lt_two_pow (h.trans_le (Nat.pow_le_pow_right (by decide) (not_lt.1 hi)))]

/-- Clear Status: a mask beyond the nine flags is refused, another clears its flags and answers them as they stood
(R166). -/
theorem exec_clearStatus (h : Started .clearStatus p rest s) (hr : Ready s) {mask : Nat} (hm : mask < 65536)
    (hp : p.payload = leBytes 2 mask) : exec .clearStatus s = .next (if 512 ≤ mask then s.answered p rest .badParam []
      else { s.answered p rest .ok (leBytes 2 s.sticky.toNat) with
        sticky := s.sticky &&& ~~~ BitVec.ofNat 9 mask }) := by
  have hnum : num (leBytes 2 mask) 0 2 = mask := leNat_leBytes (k := 2) hm
  have hexec : exec .clearStatus s = answerTo p (clearStatusRule p.payload { s with commandBuffer := rest }) :=
    runCommand_ready h hr ⟨nofun, nofun⟩ (by rw [hp]; rfl) _
  rw [hexec, hp, clearStatusRule, hnum]
  split <;> rfl

/-- Set Notice Mask: a mask beyond the five kinds is refused, another is written (R165). -/
theorem exec_setNoticeMask (h : Started .setNoticeMask p rest s) (hr : Ready s) {mask : Nat} (hm : mask < 256)
    (hp : p.payload = leBytes 1 mask) : exec .setNoticeMask s = .next (if 32 ≤ mask
      then s.answered p rest .badParam []
      else { s.answered p rest .ok [] with noticeMask := BitVec.ofNat 5 mask }) := by
  have hnum : num (leBytes 1 mask) 0 1 = mask := leNat_leBytes (k := 1) hm
  have hexec : exec .setNoticeMask s = answerTo p (setNoticeMaskRule p.payload { s with commandBuffer := rest }) :=
    runCommand_ready h hr ⟨nofun, nofun⟩ (by rw [hp]; rfl) _
  rw [hexec, hp, setNoticeMaskRule, hnum]
  split <;> rfl

/-! ### Read Counters (R18, R76, R167) -/

/-- A Read Counters payload read back (R171). -/
structure ReadCountersPayload (payload : List Byte) (kind number clear : Nat) : Prop where
  length : payload.length = 3
  kind : num payload 0 1 = kind
  number : num payload 1 1 = number
  clear : num payload 2 1 = clear

/-- The payload the layout writes reads back. -/
theorem readCountersPayload_layout {kind number clear : Nat} (hk : kind < 256) (hn : number < 256) (hc : clear < 256) :
    ReadCountersPayload (leBytes 1 kind ++ leBytes 1 number ++ leBytes 1 clear) kind number clear where
  length := rfl
  kind := leNat_leBytes (k := 1) hk
  number := leNat_leBytes (k := 1) hn
  clear := leNat_leBytes (k := 1) hc

/-- A started Read Counters answers by its rule in every load state. -/
theorem exec_readCounters (h : Started .readCounters p rest s) (hs : s.starting = false)
    (hp : p.payload.length = 3) : exec .readCounters s
      = answerTo p (readCountersRule p.payload { s with commandBuffer := rest }) :=
  runCommand_proceeds h (proceeds_always hs rfl) (beq_iff_eq.2 hp) readCountersRule

end

section
variable {payload : List Byte} {kind number clear : Nat}

/-- Read Counters with a byte that names no switch position, no group or no member of its group (R167, R171). -/
theorem readCountersRule_badParam (hp : ReadCountersPayload payload kind number clear)
    (h : 1 < clear ∨ 2 < kind ∨ (kind = 0 ∧ 3 < number) ∨ (kind = 1 ∧ 15 < number)) (s : State) :
    readCountersRule payload s = refuse s .badParam := by
  obtain ⟨-, rfl, rfl, rfl⟩ := hp
  by_cases hclear : 1 < num payload 2 1
  · simp only [readCountersRule, switch?_eq_none.2 hclear]
  · have hswitch := (switch?_eq (num payload 2 1)).trans (if_pos (not_lt.1 hclear))
    rcases h.resolve_left hclear with hkind | ⟨hkind, hnumber⟩ | ⟨hkind, hnumber⟩
    · obtain ⟨k, hk⟩ := Nat.exists_eq_add_of_le' hkind
      simp only [readCountersRule, hswitch, hk]
    · simp only [readCountersRule, hswitch, hkind, below?_eq_none.2 hnumber]
    · simp only [readCountersRule, hswitch, hkind, below?_eq_none.2 hnumber]

/-- Read Counters of a camera (R18). -/
theorem readCountersRule_camera (c : Fin 4) (hp : ReadCountersPayload payload 0 c.val clear) (hc : clear ≤ 1)
    (s : State) :
    readCountersRule payload s = .reply (if clear = 1 then s.countCamera c fun _ => CameraCounters.zero else s) .ok
      (counterBytes (pick s.ports c).counters.toList) := by
  obtain ⟨-, hkind, hnumber, rfl⟩ := hp
  simp only [readCountersRule, hkind, below?_eq_some.2 hnumber.symm, switch?_eq, if_pos hc, decide_eq_true_eq]

/-- Read Counters of a view (R76). -/
theorem readCountersRule_view (v : Fin 16) (hp : ReadCountersPayload payload 1 v.val clear) (hc : clear ≤ 1)
    (s : State) :
    readCountersRule payload s = .reply (if clear = 1 then s.countView v fun _ => ViewCounters.zero else s) .ok
      (counterBytes (pick s.views v).counters.toList) := by
  obtain ⟨-, hkind, hnumber, rfl⟩ := hp
  simp only [readCountersRule, hkind, below?_eq_some.2 hnumber.symm, switch?_eq, if_pos hc, decide_eq_true_eq]

/-- Read Counters of the interface (R167). -/
theorem readCountersRule_interface (hp : ReadCountersPayload payload 2 number clear) (hc : clear ≤ 1) (s : State) :
    readCountersRule payload s = .reply (if clear = 1 then s.countInterface fun _ => InterfaceCounters.zero else s) .ok
      (counterBytes s.interfaceCounters.toList) := by
  obtain ⟨-, hkind, -, rfl⟩ := hp
  simp only [readCountersRule, hkind, switch?_eq, if_pos hc, decide_eq_true_eq]

end

/-- Settles O53, command by command. -/
theorem statusAndCounters : Obligations.StatusAndCounters := by
  intro s p rest
  refine ⟨exec_identify, fun h hp => ?_, fun mask h hr hm hp => ?_,
    fun kind number clear h hs hk hn hc hp => ?_, fun mask h hr hm hp => ?_⟩
  · rw [exec_getStatus h hp]
    cases hunit : s.loadUnit <;> simp only [statusWord, hunit, loadStateCode]
  · rw [exec_clearStatus h hr hm hp]
    refine ⟨fun hbad => by rw [if_pos hbad], fun hgood => ?_⟩
    rw [if_neg (not_le.2 hgood)]
    exact ⟨_, rfl, fun i => getLsbD_cleared s.sticky i, rfl⟩
  · have hpay := hp ▸ readCountersPayload_layout hk hn hc
    rw [exec_readCounters h hs hpay.length]
    refine ⟨fun hbad => ?_, fun c hkind hnumber hclear => ?_, fun v hkind hnumber hclear => ?_, fun hkind hclear => ?_⟩
    · rw [readCountersRule_badParam hpay hbad]
      rfl
    · subst hkind hnumber
      rw [readCountersRule_camera c hpay hclear]
      split <;> rfl
    · subst hkind hnumber
      rw [readCountersRule_view v hpay hclear]
      split <;> rfl
    · subst hkind
      rw [readCountersRule_interface hpay hclear]
      split <;> rfl
  · rw [exec_setNoticeMask h hr hm hp]
    refine ⟨fun hbad => by rw [if_pos hbad], fun hgood => ?_⟩
    rw [if_neg (not_le.2 hgood)]
    exact ⟨_, rfl, fun i => getLsbD_ofNat_of_lt hgood i, rfl⟩

end Sys2Proof.Machine
end
